-- ==== Sys2Proof/Word.lean ====
section
/-! DEFINITION. Word types of the device (spec/00_scope.md R3, spec/05_register_files.md R99) and their plainest
arithmetic. -/

namespace Sys2Proof

/-- 8 bits (R3). -/
abbrev Byte := BitVec 8
/-- 32 bits (R3). -/
abbrev Word := BitVec 32
/-- 64 bits (R3): a scalar register. -/
abbrev Dbl := BitVec 64
/-- One predicate mask: a bit per byte lane (R93). -/
abbrev Mask := BitVec 128
/-- A vector register, an operand of a port, or a command register: 1024 bits (R99, R64). -/
abbrev Vec := BitVec 1024
/-- A tile register: 64 rows of 128 bytes (R106). -/
abbrev Tile := BitVec 65536

/-- Sign extension of the low w bits of x, as an integer. -/
def sextInt (w x : Nat) : Int :=
  let y := x % 2 ^ w
  if 2 * y < 2 ^ w then (y : Int) else (y : Int) - 2 ^ w

/-- The w-bit two's complement code of an integer. -/
def wrapInt (w : Nat) (i : Int) : Nat := (i % (2 ^ w : Int)).toNat

end Sys2Proof
end

