-- ==== Sys2Proof/Syntax.lean ====
section
/-! DEFINITION. Syntax of the Polelle PL-910: operand kinds, descriptors that system software and the
host hand over, and one constructor of Instr for every row of spec/opcode_table.json. Words of the four
engines come first, in the order of Tables 3.9 to 3.12; the commands and events that have no word of their
own follow, in the table's order. Register numbers and immediates are the raw field values. -/

namespace Sys2Proof

/-- Functions of ALU (Table 6.1, R121). -/
inductive AluFn where
  | add | sub | and | or | xor | andn | shl | shr | sra | rol | min | max | minu | maxu | clz | popc | sel
  deriving DecidableEq, Repr, Inhabited

/-- Functions of MULDIV (R122). -/
inductive MulFn where
  | mul | mulh | mulhu | div | divu | rem | remu
  deriving DecidableEq, Repr, Inhabited

/-- Access sizes of format SM (R3). -/
inductive Size where
  | byte | half | word | dbl
  deriving DecidableEq, Repr, Inhabited

/-- Word or double (formats SMA and SAM, R55). -/
inductive WSize where
  | word | dbl
  deriving DecidableEq, Repr, Inhabited

/-- Scopes (R12, R55). -/
inductive Scope where
  | core | cluster | stack | device | system
  deriving DecidableEq, Repr, Inhabited

/-- FENCE kinds (Table 11.5). -/
inductive FenceKind where
  | full | acq | rel
  deriving DecidableEq, Repr, Inhabited

/-- CMAINT operations (R235). -/
inductive CmOp where
  | clean | inv | cinv
  deriving DecidableEq, Repr, Inhabited

/-- CMAINT levels (R235). -/
inductive CmLevel where
  | l1 | slice | msc
  deriving DecidableEq, Repr, Inhabited

/-- AMO functions (R131). -/
inductive AmoFn where
  | add | and | or | xor | min | max | minu | maxu | swap | fadd32
  deriving DecidableEq, Repr, Inhabited

/-- Lane types TY (Table 8.1). -/
inductive VTy where
  | i8 | i16 | i32 | bf16 | fp16 | fp32 | e4m3 | e5m2
  deriving DecidableEq, Repr, Inhabited

/-- VUN functions (R156). -/
inductive VUnFn where
  | abs | neg | not | clz | popc
  deriving DecidableEq, Repr, Inhabited

/-- VLOG functions (R157). -/
inductive VLogFn where
  | and | or | xor | andn
  deriving DecidableEq, Repr, Inhabited

/-- VSH functions (R158). -/
inductive VShFn where
  | shl | shr | sra
  deriving DecidableEq, Repr, Inhabited

/-- VCMP relations (R94). -/
inductive VRel where
  | eq | ne | lt | ge | le | gt
  deriving DecidableEq, Repr, Inhabited

/-- VRED functions (R173). -/
inductive VRedFn where
  | sum | max | min
  deriving DecidableEq, Repr, Inhabited

/-- VAMO functions (R182). -/
inductive VAmoFn where
  | add | fadd | max
  deriving DecidableEq, Repr, Inhabited

/-- Lane width codes of VI words (R176). -/
inductive LaneW where
  | w8 | w16 | w32
  deriving DecidableEq, Repr, Inhabited

/-- Rounding modes (Table 2.4). -/
inductive Rnd where
  | rne | rtz | rdn | rup
  deriving DecidableEq, Repr, Inhabited

/-- Tile directions (R63, R107). -/
inductive Dir where
  | row | col | diag | adiag
  deriving DecidableEq, Repr, Inhabited

/-- Tile types (Table 5.2). -/
inductive TileTy where
  | int8 | uint8 | e4m3 | e5m2 | bf16 | fp16 | fp32
  deriving DecidableEq, Repr, Inhabited

/-- Caisson size classes (Table 10.1). -/
inductive TClass where
  | c4 | c16 | c64
  deriving DecidableEq, Repr, Inhabited

/-- EVWAIT modes (R113). -/
inductive EvMode where
  | any | all
  deriving DecidableEq, Repr, Inhabited

/-- Scalar relations (Table 4.3). -/
inductive Rel where
  | eq | ne | lt | ge | ltu | geu
  deriving DecidableEq, Repr, Inhabited

/-- The engine that owns a word (R50). -/
inductive Eng where
  | s | v | m | c
  deriving DecidableEq, Repr, Inhabited

/-- Guard of an SA word (R56): absent, or a condition c0-c3 with its sense GS. -/
inductive Guard where
  | always
  | cond (c gs : Nat)
  deriving DecidableEq, Repr, Inhabited

/-- A vector source operand (Table 3.4). -/
inductive VSrc where
  | reg (n : Nat)
  | port (n : Nat)
  | q
  | zero
  deriving DecidableEq, Repr, Inhabited

/-- A vector destination operand (Table 3.4). -/
inductive VDst where
  | reg (n : Nat)
  | port (n : Nat)
  deriving DecidableEq, Repr, Inhabited

/-- The events an SE word names (R113): one event, or the mask in a scalar register. -/
inductive EvSel where
  | one (ev : Nat)
  | mask (a : Nat)
  deriving DecidableEq, Repr, Inhabited

/-- Integer lane types (Table 8.1). -/
def VTy.isInt : VTy → Bool
  | .i8 | .i16 | .i32 => true
  | _ => false

/-- Lane types with a widening partner (Table 8.3). -/
def VTy.isNarrow : VTy → Bool
  | .i32 | .fp32 => false
  | _ => true

/-- Code types of VQUANT and VDEQ (Table 8.4). -/
def VTy.isCode : VTy → Bool
  | .i8 | .i16 | .e4m3 | .e5m2 => true
  | _ => false

/-- Lane types VRCP and VRSQ accept (R172). -/
def VTy.isWideFloat : VTy → Bool
  | .bf16 | .fp16 | .fp32 => true
  | _ => false

/-- Lanes of a VI width code (R176). -/
def LaneW.lanes : LaneW → Nat
  | .w8 => 128
  | .w16 => 64
  | .w32 => 32

/-- A destination that is a register. -/
def VDst.isReg : VDst → Bool
  | .reg _ => true
  | .port _ => false

/-- A unit that completes commands: a copy queue (0 load, 1 store) of a core, or a cluster's Girder. -/
inductive CmdUnit where
  | copy (core q : Nat)
  | girder (cluster : Nat)
  deriving DecidableEq, Repr, Inhabited

/-- A unit that can be fenced, gated or woken (R380, R383, R402). -/
inductive UnitId where
  | core (n : Nat)
  | girder (n : Nat)
  | cluster (n : Nat)
  | stack (n : Nat)
  | weightStore (die : Nat)
  deriving DecidableEq, Repr, Inhabited

/-- One Caisson slot named by system software: LOCAL of its core and first 4 KiB unit (R205). -/
structure SlotName where
  core : Nat
  unit : Nat
  deriving DecidableEq, Repr, Inhabited

/-- Request for a pipeline instance (R205, R353): image, partition cluster, ARG, wanted carve, and
the slots of each edge in edge order. -/
structure InstReq where
  image : Nat
  cluster : Nat
  arg : Nat
  carve : Nat
  slots : List (List SlotName)
  deriving DecidableEq, Repr, Inhabited

/-- Configuration of a scheduler context (R353), with what R384, R403, R417, R422 and R423 attach to it. -/
structure CtxConfig where
  base : Nat
  ceil : Nat
  weight : Nat
  qbase : Nat
  qcap : Nat
  dbase : Nat
  dcnt : Nat
  xid : Nat
  faultBase : Nat
  falog : Nat
  vec : Nat
  owner : Nat
  pasid : Option Nat
  stream : Option Nat
  inst : Option InstReq
  deriving DecidableEq, Repr, Inhabited

/-- Published-buffer descriptor (Table 11.6). -/
structure BufDesc where
  base : Nat
  extents : Nat
  esize : Nat
  backA : Nat
  backB : Nat
  /-- Bytes 13 to 15, which are zero. -/
  zero : Nat := 0
  deriving DecidableEq, Repr, Inhabited

/-- Aperture descriptor (Table 11.7). -/
structure ApDesc where
  abase : Nat
  sbase : Nat
  rows : Nat
  cols : Nat
  pitch : Nat
  kind : Nat
  ty : Nat
  smode : Nat
  blk : Nat
  scales : Nat
  deriving DecidableEq, Repr, Inhabited

/-- Layer entry of a stream (Table 16.5). -/
structure LayerDesc where
  w : Nat
  h : Nat
  s : Nat
  halo : Nat
  rpt : Nat
  /-- Byte 7. -/
  zero : Nat := 0
  deriving DecidableEq, Repr, Inhabited

/-- Stream decode descriptor (Table 16.1). -/
structure StreamDesc where
  codec : Nat
  fps : Nat
  w : Nat
  h : Nat
  f : Nat
  bsbase : Nat
  bslog : Nat
  fbase : Nat
  es : Nat
  tsbase : Nat
  layers : List LayerDesc
  /-- Bytes 17 to 23, 36 to 39 and 48 to 63 as a number. -/
  zero : Nat := 0
  deriving DecidableEq, Repr, Inhabited

/-- How the luma of a partition of a block is predicted (R329): by one translation of the previous delivered frame with
default weights, in eighths of a pixel; by two such translations averaged, snd marking that the engine names the second; with
other weights, within the frame, from an older frame, or by warped, global or overlapped motion. -/
inductive LumaPred where
  | prev (x y : Int)
  | bi (x y u v : Int) (snd : Bool)
  | weighted | intra | older | warped | global | overlapped
  deriving DecidableEq, Repr, Inhabited

/-- An 8 by 8 block as decoded (R329, R330): the predictions of its partitions, the one with its top-left pixel first, and
its luma residual samples, none for a skipped block. -/
structure BlockData where
  parts : List LumaPred
  res : List Int
  deriving DecidableEq, Repr, Inhabited

/-- What a codec engine decodes for one frame (R328 to R330): 10-bit samples or 8-bit ones, the samples of both planes row
by row with the padding of a row's pitch, the blocks in order, the bitstream bytes consumed, and whether the picture is a
random-access point (R327). The bitstream's own syntax is not in the spec, so the decoded picture is an input. -/
structure FrameData where
  deep : Bool := false
  key : Bool := true
  luma : List Nat
  chroma : List Nat
  blocks : List BlockData
  consumed : Nat
  deriving DecidableEq, Repr, Inhabited

/-- Translation context record (Table 19.1). -/
structure XidRec where
  root : Nat
  group : Nat
  valid : Bool
  deriving DecidableEq, Repr, Inhabited

/-- An inbound AtomicOp (R416, R425). -/
inductive HostAtomic where
  | fetchAdd (v : Nat)
  | swap (v : Nat)
  | cas (cmp v : Nat)
  deriving DecidableEq, Repr, Inhabited

/-- What the boot sequence finds (Table 21.1): the start-up pattern of the unclonable function, whether HBM trains, the units
step 5 fences, and the cause code that a failing step leaves (R432). -/
structure BootResult where
  pattern : Nat
  trained : Bool
  badUnits : List UnitId
  cause : Nat
  deriving DecidableEq, Repr, Inhabited

/-- Every operation and event of the opcode table. -/
inductive Instr where
  /-- NOP (R52). S-engine no-operation that only advances S's program counter. -/
  | nop
  /-- ALU (R121). Scalar integer operation selected by FN on s[A] and s[B], result written to s[D]; guardable. -/
  | alu (f : AluFn) (d : Nat) (a : Nat) (b : Nat) (g : Guard)
  /-- MULDIV (R122). Scalar multiply, high multiply, divide or remainder selected by FN; the divide forms share one per-core divider. -/
  | muldiv (f : MulFn) (d : Nat) (a : Nat) (b : Nat) (g : Guard)
  /-- ADDI (R123). Adds the sign-extended IMM14 to s[A]. -/
  | addi (d : Nat) (a : Nat) (imm : Nat)
  /-- ANDI (R123). ANDs s[A] with the zero-extended IMM14. -/
  | andi (d : Nat) (a : Nat) (imm : Nat)
  /-- ORI (R123). ORs s[A] with the zero-extended IMM14. -/
  | ori (d : Nat) (a : Nat) (imm : Nat)
  /-- XORI (R123). XORs s[A] with the zero-extended IMM14. -/
  | xori (d : Nat) (a : Nat) (imm : Nat)
  /-- SHLI (R123). Shifts s[A] left by an immediate count of 0 to 63. -/
  | shli (d : Nat) (a : Nat) (cnt : Nat)
  /-- SHRI (R123). Shifts s[A] right logically by an immediate count. -/
  | shri (d : Nat) (a : Nat) (cnt : Nat)
  /-- SRAI (R123). Shifts s[A] right arithmetically by an immediate count. -/
  | srai (d : Nat) (a : Nat) (cnt : Nat)
  /-- LUI (R124). Writes sext64(IMM19 << 14) to s[D]. -/
  | lui (d : Nat) (imm : Nat)
  /-- LUH (R124). Replaces bits 63:33 of s[D] with the sign-extended IMM19 and keeps bits 32:0. -/
  | luh (d : Nat) (imm : Nat)
  /-- CMP (R86). Compares s[A] with s[B] under a relation and writes the result to a condition bit; guardable. -/
  | cmp (r : Rel) (c : Nat) (a : Nat) (b : Nat) (g : Guard)
  /-- CMPI (R86). Compares s[A] with the sign-extended IMM14 and writes the result to a condition bit. -/
  | cmpi (r : Rel) (c : Nat) (a : Nat) (imm : Nat)
  /-- LEA (R125). Writes s[A] + (s[B] << sh) to s[D]. -/
  | lea (d : Nat) (a : Nat) (b : Nat) (sh : Nat) (g : Guard)
  /-- CTOS (R126). Copies condition bits c3 to c0 into the low bits of s[D]. -/
  | ctos (d : Nat) (g : Guard)
  /-- STOC (R126). Sets condition bits c0 to c3 from bits 3:0 of s[A]. -/
  | stoc (a : Nat) (g : Guard)
  /-- LD (R129). Zero-extending load of a byte, half, word or double, tracked on w0. -/
  | ld (d : Nat) (a : Nat) (oc : Nat) (sz : Size) (off : Nat)
  /-- LDS (R129). Sign-extending load, tracked on w0. -/
  | lds (d : Nat) (a : Nat) (oc : Nat) (sz : Size) (off : Nat)
  /-- ST (R129). Stores the low bytes of s[D] in an ordering class. -/
  | st (d : Nat) (a : Nat) (oc : Nat) (sz : Size) (off : Nat)
  /-- LDA (R130). Load with acquire semantics at a scope, tracked on w0. -/
  | lda (d : Nat) (a : Nat) (oc : Nat) (sc : Scope) (sz : WSize) (off : Nat)
  /-- STL (R130). Store with release semantics at a scope. -/
  | stl (d : Nat) (a : Nat) (oc : Nat) (sc : Scope) (sz : WSize) (off : Nat)
  /-- AMO (R131). Indivisible read-modify-write of a word or double, returning the old value to s[D]. -/
  | amo (f : AmoFn) (d : Nat) (a : Nat) (b : Nat) (sc : Scope) (sz : WSize)
  /-- CAS (R132). Indivisible compare-and-swap against s[D], writing s[B] when they are equal and returning the old value. -/
  | cas (d : Nat) (a : Nat) (b : Nat) (sc : Scope) (sz : WSize)
  /-- FENCE (R234). Full, acquire or release fence over a class mask at a scope. -/
  | fence (k : FenceKind) (sc : Scope) (cm : Nat)
  /-- CMAINT (R235). Cleans, invalidates, or cleans and invalidates cache lines over a range at L1, slice or memory-side cache. -/
  | cmaint (op : CmOp) (lv : CmLevel) (a : Nat) (b : Nat) (g : Guard)
  /-- WAITA (R195). Waits at the bank until a signal word satisfies a relation, or until the timeout expires, then acquires. -/
  | waita (r : Rel) (sz : WSize) (d : Nat) (a : Nat) (b : Nat) (g : Guard)
  /-- BAR_ARRIVE (R198). Arrives at a barrier, returns its phase and settles it. -/
  | barArrive (d : Nat) (a : Nat) (g : Guard)
  /-- BAR_EXPECT (R198). Adds an expected byte count to a barrier's PEND and settles it. -/
  | barExpect (a : Nat) (b : Nat) (g : Guard)
  /-- BAR_WAIT (R198). Stalls until the barrier's phase differs from the given phase, then acquires. -/
  | barWait (a : Nat) (b : Nat) (g : Guard)
  /-- BAR_ARRIVE_EXPECT (R198). Adds expected bytes and arrives in one step, returning the phase. -/
  | barArriveExpect (d : Nat) (a : Nat) (b : Nat) (g : Guard)
  /-- FPUT (R201). Writes a value into an empty future and makes it full; a full future faults FUTURE_OVERWRITE. -/
  | fput (a : Nat) (b : Nat) (g : Guard)
  /-- FGET (R201). Waits for a full future, takes its value and empties it. -/
  | fget (d : Nat) (a : Nat) (g : Guard)
  /-- FPEEK (R201). Waits for a full future and reads its value, leaving it full. -/
  | fpeek (d : Nat) (a : Nat) (g : Guard)
  /-- PTG (R85). Sets a branch target register to a text offset relative to the word. -/
  | ptg (bt : Nat) (imm : Nat)
  /-- XFER (R87). S control transfer with two delay slots; pushes its outcome to the named engines' outcome queues and may link into b7. -/
  | xfer (bt : Nat) (l : Nat) (u : Nat) (ci : Nat) (cs : Nat) (bm : Nat)
  /-- TRAP (R135). Raises fault TRAP, recording the code and s[D], and ends the task without relaunch. -/
  | trap (d : Nat) (code : Nat)
  /-- HALT (R371). Stops S, committing first if the gang has not committed. -/
  | halt
  /-- WAIT (R111). S waits until every token named in the mask is clear. -/
  | wait (m : Nat)
  /-- EVWAIT (R113). Stalls until any or all of the named events are set. -/
  | evwait (e : EvSel) (mode : EvMode)
  /-- EVSIG (R113). Sets the named events. -/
  | evsig (e : EvSel)
  /-- EVCLR (R113). Clears the named events. -/
  | evclr (e : EvSel)
  /-- QPUSH (R142). Pushes s[A] into the S-to-V, S-to-M or S-to-C queue. -/
  | qpush (sel : Nat) (a : Nat)
  /-- QPOP (R142). Pops the V-to-S queue, the M-to-S queue or S's outcome queue into s[D], converting on the pop. -/
  | qpop (sel : Nat) (d : Nat)
  /-- FPUSH (R142). Pushes a 32-bit format word into fq. -/
  | fpush (a : Nat)
  /-- PSET (R145). Reads a port parameter block and appends its configuration to a port's configuration queue. -/
  | pset (p : Nat) (a : Nat)
  /-- QMARK (R148). Pushes a marker into each named queue, and into the port configuration queues for bit 0. -/
  | qmark (m : Nat)
  /-- SQDRAIN (R150). Discards the V-to-S or M-to-S queue up to and including its next marker. -/
  | sqdrain (sel : Nat)
  /-- TALLOC (R214). Allocates the lowest free Caisson slot of an edge's partition with a read count, stalling while the partition is full. -/
  | talloc (k : TClass) (d : Nat) (a : Nat) (b : Nat) (g : Guard)
  /-- TSEAL (R215). Seals an open tile, making it sealed-pending and removing write right. -/
  | tseal (a : Nat) (g : Guard)
  /-- TREAD (R216). Records a provisional read decrement on a tile and returns its tile-window address. -/
  | tread (d : Nat) (a : Nat) (g : Guard)
  /-- TRET (R217). Gives a tile back without reading it: frees an own open tile at COMMIT, or records a decrement. -/
  | tret (a : Nat) (g : Guard)
  /-- SPAWN (R374). Copies and holds a launch record from the allotment, to be applied at commit. -/
  | spawn (a : Nat) (g : Guard)
  /-- JOIN (R375). Waits until a join object's COUNT is 0, returns its status and acquires at .device. -/
  | join (d : Nat) (a : Nat) (g : Guard)
  /-- COMMIT (R368). Waits for all of the strand's work and all gang members, then applies the gang-wide commit step. -/
  | commit
  /-- YIELD (R376). Discards the task's gang without a fault and re-queues it. -/
  | yield
  /-- SYSRD (R134). Reads a system register into s[D]. -/
  | sysrd (d : Nat) (idx : Nat)
  /-- SYSWR (R134). Writes s[A] to a system register that has no behaviour of its own, subject to access codes and privilege. -/
  | syswr (a : Nat) (idx : Nat)
  /-- PSNAP (R242). Pins the current selectors of a published buffer and returns its version. -/
  | psnap (d : Nat) (a : Nat) (g : Guard)
  /-- PREL (R242). Releases the strand's pin of a published buffer. -/
  | prel (a : Nat) (g : Guard)
  /-- VNOP (R52). V-engine no-operation. -/
  | vnop
  /-- VADD (R155). Element-wise add under the current mask. -/
  | vadd (d : VDst) (a : VSrc) (b : VSrc) (ty : VTy) (s : Nat) (u : Nat)
  /-- VSUB (R155). Element-wise subtract. -/
  | vsub (d : VDst) (a : VSrc) (b : VSrc) (ty : VTy) (s : Nat) (u : Nat)
  /-- VMUL (R155). Element-wise multiply. -/
  | vmul (d : VDst) (a : VSrc) (b : VSrc) (ty : VTy) (s : Nat) (u : Nat)
  /-- VFMA (R155). Element-wise fused multiply-add into the destination with one rounding. -/
  | vfma (d : VDst) (a : VSrc) (b : VSrc) (ty : VTy) (s : Nat) (u : Nat)
  /-- VFNMA (R155). Element-wise d minus a times b with one rounding. -/
  | vfnma (d : VDst) (a : VSrc) (b : VSrc) (ty : VTy) (s : Nat) (u : Nat)
  /-- VMIN (R155). Element-wise minimum. -/
  | vmin (d : VDst) (a : VSrc) (b : VSrc) (ty : VTy) (u : Nat)
  /-- VMAX (R155). Element-wise maximum. -/
  | vmax (d : VDst) (a : VSrc) (b : VSrc) (ty : VTy) (u : Nat)
  /-- VUN (R156). Unary ABS, NEG, NOT, CLZ or POPC per lane, selected by MN. -/
  | vun (f : VUnFn) (d : VDst) (a : VSrc) (ty : VTy)
  /-- VLOG (R157). Bitwise AND, OR, XOR or ANDN per lane. -/
  | vlog (f : VLogFn) (d : VDst) (a : VSrc) (b : VSrc) (ty : VTy)
  /-- VSH (R158). Per-lane shift left, logical right or arithmetic right. -/
  | vsh (f : VShFn) (d : VDst) (a : VSrc) (b : VSrc) (ty : VTy)
  /-- VADDI (R159). Adds a sign-extended immediate to every int32 lane. -/
  | vaddi (d : VDst) (a : VSrc) (imm : Nat)
  /-- VMULW (R162). Widening multiply of two narrow operands into a wide group. -/
  | vmulw (d : VDst) (a : VSrc) (b : VSrc) (ty : VTy) (u : Nat)
  /-- VADDW (R163). Adds a widened narrow operand to a wide group. -/
  | vaddw (d : VDst) (a : VSrc) (b : VSrc) (ty : VTy) (s : Nat) (u : Nat)
  /-- VNARR (R164). Narrows a wide group to TY by truncation, saturation or rounding. -/
  | vnarr (d : VDst) (a : VSrc) (ty : VTy) (s : Nat) (u : Nat)
  /-- VCMP (R94). Compares lanes and pushes the resulting mask onto the predicate stack. -/
  | vcmp (r : VRel) (u : Nat) (a : VSrc) (b : VSrc) (ty : VTy)
  /-- VELSE (R95). Replaces the top of the predicate stack with parent AND NOT top. -/
  | velse
  /-- VEND (R95). Pops the predicate stack. -/
  | vend
  /-- VVOTE (R97). Pushes the ANY or ALL of the current mask into the named outcome queues. -/
  | vvote (q : Nat) (all : Nat)
  /-- VSEL (R96). Selects per lane between two sources by the current mask, writing every lane. -/
  | vsel (d : VDst) (a : VSrc) (b : VSrc) (ty : VTy)
  /-- VBQ (R90). V branch that pops V's outcome queue, with two delay slots. -/
  | vbq (s : Nat) (imm : Nat)
  /-- VCVT (R165). Converts lanes between types with a chosen rounding mode. -/
  | vcvt (d : VDst) (a : VSrc) (mode : Rnd) (sty : VTy) (ty : VTy) (s : Nat) (u : Nat)
  /-- VQUANT (R167). Quantizes 128 fp32 elements to block-scaled codes. -/
  | vquant (d : VDst) (a : VSrc) (b : VSrc) (ty : VTy) (s : Nat)
  /-- VDEQ (R168). Dequantizes 128 block-scaled codes to fp32. -/
  | vdeq (d : VDst) (a : VSrc) (b : VSrc) (ty : VTy)
  /-- VRINT (R169). Rounds lanes to integral values under a mode, raising no flag. -/
  | vrint (d : VDst) (a : VSrc) (ty : VTy) (mode : Rnd)
  /-- VEXP2F (R170). Approximates 2^a for fp32 lanes in [-0.5, 0.5]. -/
  | vexp2f (d : VDst) (a : VSrc)
  /-- VSCALEB (R171). Multiplies fp32 lanes by 2^n with one rounding. -/
  | vscaleb (d : VDst) (a : VSrc) (b : VSrc)
  /-- VRCP (R172). Reciprocal per lane. -/
  | vrcp (d : VDst) (a : VSrc) (ty : VTy)
  /-- VRSQ (R172). Reciprocal square root per lane. -/
  | vrsq (d : VDst) (a : VSrc) (ty : VTy)
  /-- VRED (R173). Exact sum, maximum or minimum over the active lanes, written to lane 0. -/
  | vred (f : VRedFn) (d : VDst) (a : VSrc) (ty : VTy)
  /-- VTOPK (R174). Writes the lane indices of the k greatest active non-NaN lanes. -/
  | vtopk (d : VDst) (a : VSrc) (b : VSrc) (ty : VTy)
  /-- VPERM (R175). Permutes lanes of VA by indices in VB. -/
  | vperm (d : VDst) (a : VSrc) (b : VSrc) (ty : VTy)
  /-- VSHUF (R175). Selects lanes from two sources by indices held in the destination. -/
  | vshuf (d : VDst) (a : VSrc) (b : VSrc) (ty : VTy)
  /-- VBCAST (R176). Broadcasts one lane of VA to the active lanes. -/
  | vbcast (d : VDst) (a : VSrc) (w : LaneW) (idx : Nat)
  /-- VIOTA (R176). Writes start plus lane index to each active int32 lane. -/
  | viota (d : VDst) (imm : Nat)
  /-- VSLIDE (R176). Slides lanes by a signed count, filling with zero. -/
  | vslide (d : VDst) (a : VSrc) (w : LaneW) (n : Nat)
  /-- VTR (R178). Reads a tile sequence into a vector with optional conversion. -/
  | vtr (d : VDst) (t : Nat) (dir : Dir) (idx : Nat) (cv : Option VTy) (mode : Rnd)
  /-- VTW (R178). Writes vector lanes into a tile sequence with optional conversion. -/
  | vtw (a : VSrc) (t : Nat) (dir : Dir) (idx : Nat) (cv : Option VTy) (mode : Rnd)
  /-- VQPUSH (R142). Pushes bits 63:0 of a source operand into the V-to-S or V-to-M queue. -/
  | vqpush (q : Nat) (a : VSrc)
  /-- VQDRAIN (R150). Drains S-to-V and the port configurations up to their markers, then pushes markers into V-to-S and V-to-M. -/
  | vqdrain
  /-- VWAIT (R111). V waits until the named tokens are clear. -/
  | vwait (m : Nat)
  /-- VAMO (R182). Per-lane scratchpad atomic ADD, FADD or MAX in lane order, tracked on a token. -/
  | vamo (f : VAmoFn) (d : VSrc) (a : VSrc) (w : Nat) (sc : Nat) (sg : Nat) (ty : VTy)
  /-- VGATH (R180). Per-lane gather load from base plus scaled offsets, tracked on a token. -/
  | vgath (d : VDst) (a : VSrc) (w : Nat) (sc : Nat) (sg : Nat) (ty : VTy)
  /-- VSCAT (R181). Per-lane scatter store in ascending lane order, tracked on a token. -/
  | vscat (d : VSrc) (a : VSrc) (w : Nat) (sc : Nat) (sg : Nat) (ty : VTy)
  /-- MNOP (R52). M-engine no-operation. -/
  | mnop
  /-- TCFG (R108). Sets a tile's type, keeping its bytes or zeroing all 8 KiB. -/
  | tcfg (d : Nat) (keep : Nat) (ty : TileTy)
  /-- TZERO (R294). Writes zero to every byte of a tile and keeps its type. -/
  | tzero (d : Nat)
  /-- TLD (R295). Loads a tile from memory by base and pitch, tracked on a token. -/
  | tld (d : Nat) (dd : Dir) (oc : Nat) (w : Nat)
  /-- TST (R295). Stores a tile to memory by base and pitch, tracked on a token. -/
  | tst (a : Nat) (da : Dir) (oc : Nat) (w : Nat)
  /-- TMOV (R296). Copies tile sequences between directions. -/
  | tmov (d : Nat) (dd : Dir) (a : Nat) (da : Dir)
  /-- TSCAL (R296). Scales tile elements by a popped fp32 factor. -/
  | tscal (d : Nat) (dd : Dir) (a : Nat) (da : Dir)
  /-- TADD (R296). Adds two tiles element by element. -/
  | tadd (d : Nat) (dd : Dir) (a : Nat) (da : Dir) (b : Nat) (db : Dir)
  /-- MLEASE (R272). Requests the cluster's Girder lease and completes when it is held. -/
  | mlease
  /-- MFREE (R272). Returns the strand to lease state none, ending any lease, and flushes the Keystone window. -/
  | mfree
  /-- MMARK (R272). Places a window marker in the Girder queue and flushes the Keystone window. -/
  | mmark
  /-- MSET (R276). Writes one halfword of an M command register. -/
  | mset (k : Nat) (f : Nat) (imm : Nat)
  /-- MSETQ (R276). Writes four halfwords of an M command register from a popped S-to-M entry. -/
  | msetq (k : Nat) (f : Nat)
  /-- MISSUE (R277). Checks an M command register and enqueues a copy of it in the Girder queue under the lease. -/
  | missue (k : Nat) (q : Nat)
  /-- MWAIT (R111). M waits until the named tokens are clear and flushes the Keystone window. -/
  | mwait (m : Nat)
  /-- MBQ (R90). M branch that pops M's outcome queue, with two delay slots. -/
  | mbq (s : Nat) (imm : Nat)
  /-- MQDRAIN (R150). Drains S-to-M, fq and V-to-M to their markers, cancels unstarted Girder commands and closes the chain. -/
  | mqdrain
  /-- MBOND (R299). Sets a bond register while the chain is closed. -/
  | mbond (n : Nat) (imm : Nat)
  /-- MORDER (R301). Loads and validates a contraction-order program. -/
  | morder
  /-- KLOAD (R319). Loads Keystone rule records from the image into slots. -/
  | kload
  /-- KPERM (R321). Sets the class R and F permissions for later words. -/
  | kperm (f : Nat) (r : Nat)
  /-- CNOP (R52). C-engine no-operation. -/
  | cnop
  /-- CSET (R249). Writes one halfword of a C command register. -/
  | cset (k : Nat) (f : Nat) (imm : Nat)
  /-- CSETQ (R249). Writes four halfwords of a C command register from a popped S-to-C entry. -/
  | csetq (k : Nat) (f : Nat)
  /-- CISSUE (R250). Checks a C command register and enqueues a copy of it in the load or store queue. -/
  | cissue (k : Nat) (q : Nat)
  /-- CCODE (R257). Loads a prefix-code length table into a code-table slot. -/
  | ccode (i : Nat)
  /-- CWAIT (R111). C waits until the named tokens are clear. -/
  | cwait (m : Nat)
  /-- CBQ (R90). C branch that pops C's outcome queue, with two delay slots. -/
  | cbq (s : Nat) (imm : Nat)
  /-- CQDRAIN (R150). Drains S-to-C to its marker and cancels unstarted copy commands. -/
  | cqdrain
  /-- CMLIST (R266). Requests a layer's tile list from the change-mask unit, tracked on a token. -/
  | cmlist (l : Nat) (w : Nat)
  /-- WAITA_TIMEOUT (R195). Expiry of the SEQ_WTIMEOUT limit; the waiting WAITA re-reads the word and completes with a value that fails the relation. -/
  | waitaTimeout (core : Nat)
  /-- KEYSTONE_REWRITE (R311). Keystone matches a group of window words against a rule and issues its replacement, with the group's queue entries. -/
  | keystoneRewrite (core : Nat)
  /-- CMLIST_LIST_WRITE (R266). When the layer is decided, writes the list entries and then the header double, and clears the token. -/
  | cmlistListWrite (core : Nat) (i : Nat)
  /-- MEMORY_RETURN (R102). A token-tracked read's data lands in its register, unless a later write supersedes it, and the token is decremented. -/
  | memoryReturn (core : Nat) (i : Nat)
  /-- COPY (R252). Copy command: moves a five-level nest, optionally converting, expanding zero-mask tiles or multicasting. -/
  | copy (core : Nat) (q : Nat)
  /-- COPYZ (R258). Copy command: expands an entropy-coded stream into a nest. -/
  | copyz (core : Nat) (q : Nat)
  /-- GATHL (R261). Copy command: gathers haloed blocks of the recompute entries of a tile list. -/
  | gathl (core : Nat) (q : Nat)
  /-- SCATL (R261). Copy command: scatters blocks into map tiles of the recompute entries. -/
  | scatl (core : Nat) (q : Nat)
  /-- MOTION (R262). Copy command: copies motion-reuse tiles from the current backing to the shadow. -/
  | motion (core : Nat) (q : Nat)
  /-- PGATH (R263). Copy command: gathers pages named by an index list through a page table. -/
  | pgath (core : Nat) (q : Nat)
  /-- FILL (R255). Copy command: fills a nest with a repeated pattern. -/
  | fill (core : Nat) (q : Nat)
  /-- WSTORE (R254). Copy command: writes into the weight-store window for a weight writer. -/
  | wstore (core : Nat) (q : Nat)
  /-- COMMAND_COMPLETION (R264). Once a command's payload is in place and earlier completions of its queue have applied, it applies SGW EARLY, BSUB, EVS and TV in order. -/
  | commandCompletion (unit : CmdUnit)
  /-- GEMM (R283). Girder command: block-scaled matrix multiply accumulated into a bank. -/
  | gemm (cluster : Nat)
  /-- CONV (R284). Girder command: convolution of a 16x16 tile against kernels from a gathered block. -/
  | conv (cluster : Nat)
  /-- CHAIN (R306). Girder command: contracts the running boundary with one tensor-chain core. -/
  | chain (cluster : Nat)
  /-- ACCRD (R286). Girder command: reads out accumulators through bias, activation, quantization, compression or delta measurement. -/
  | accrd (cluster : Nat)
  /-- ACCZ (R285). Girder command: zeroes rows of a bank. -/
  | accz (cluster : Nat)
  /-- WLOAD (R282). Girder command: loads a stationary buffer's rows and scale words. -/
  | wload (cluster : Nat)
  /-- GIRDER_MIGRATION (R292). After GIR_MIG_WAIT cycles unstarted, a migratable command runs on an idle Girder of the stack domain. -/
  | girderMigration (cluster : Nat) (i : Nat) (target : Nat)
  /-- LEASE_GRANT (R273). The Girder grants a free lease to the next waiting strand in cyclic LOCAL order. -/
  | leaseGrant (cluster : Nat)
  /-- LEASE_LAPSE_CYCLES (R273). GIR_LEASE_CYC cycles after the grant, the lease lapses and the Girder re-arbitrates. -/
  | leaseLapseCycles (cluster : Nat)
  /-- WATCHDOG (R386). A strand's stall count reaches ERR_WDOG.CYCLES and the strand raises WATCHDOG. -/
  | watchdog (core : Nat)
  /-- POSTCOMMIT_LONG (R370). The halt bundle has not retired 512 cycles after the commit step. -/
  | postcommitLong (core : Nat)
  /-- COMMIT_STEP (R369). Gang-wide indivisible step: release, Caisson checks and effects, WST_READY set, flip of published extents. -/
  | commitStep (gang : Nat)
  /-- HALT_BUNDLE_RETIRE (R371). The strand ends: queues emptied, allotment cleared, banks freed, core freed, join update and halt line raised. -/
  | haltBundleRetire (core : Nat)
  /-- LAUNCH_MAILBOX (R351). A host write of a record address to LMBX; the scheduler copies and checks the record. -/
  | launchMailbox (fn : Nat) (val : Nat)
  /-- DISPATCH (R356). The scheduler picks an eligible ready task by level, DRR and pressure and places it. -/
  | dispatch
  /-- QUOTA_EVALUATION (R358). Every 10 µs, each stage's quota is recomputed from its ready tasks. -/
  | quotaEvaluation
  /-- SPILL_REFILL (R363). While more than 256 records are free, the oldest spilled record moves into the pool. -/
  | spillRefill
  /-- BOOT_MAILBOX (R364). A write of a core's boot mailbox starts that core on an image. -/
  | bootMailbox (core : Nat) (image : Nat) (arg : Nat)
  /-- STRAND_START (R366). The core loads the image if needed, the data section and the preload, sets registers and starts S. -/
  | strandStart (core : Nat)
  /-- IMAGE_REGISTER (R77). The overlay loader checks an Esarnind image and refuses malformed images. -/
  | imageRegister (handle : Nat) (ctxs : List Nat) (bytes : List Nat)
  /-- BITSTREAM_WRITE (R326). The host advances BS_WR.WRITE for a stream, refused with OVR if the buffer would overflow. -/
  | bitstreamWrite (stream : Nat) (val : Nat)
  /-- FRAME_DELIVERY (R331). A codec engine writes a frame entry, layer 0 is decided, guard zones are evaluated, then the frame launch is sent. -/
  | frameDelivery (stream : Nat) (data : FrameData)
  /-- DECODE_ERROR (R327). A decode error sets ERR, raises MSI-X and resumes at the next random-access point. -/
  | decodeError (stream : Nat)
  /-- LAYER_DECISION (R338). A layer of a frame is decided once the previous frame's layer is decided and the lower layer is reported. -/
  | layerDecision (stream : Nat) (layer : Nat)
  /-- CMU_DEFERRED_WRITE (R344). A task's write of CMU_THRESH or CMU_REFRESH is held until the post-commit region. -/
  | cmuDeferredWrite (core : Nat) (idx : Nat) (val : Nat)
  /-- SLIPW_WRITE (R82). A write of SEQ_SLIPW.WORDS clamped to 16 to 4,096, taking effect the next cycle. -/
  | slipwWrite (core : Nat) (val : Nat)
  /-- KEY_CTL_WRITE (R323). A privileged write of KEY_CTL.EN, taking effect at the next flush word. -/
  | keyCtlWrite (core : Nat) (val : Nat)
  /-- PARAPET_FIRE (R392). A write of 1 to ERR_PTRIG.FIRE raises a Parapet trigger. -/
  | parapetFire (val : Nat)
  /-- PARAPET_ARM (R394). A write of 1 to ERR_PCTL.ARM arms the Parapet and raises the arming trigger. -/
  | parapetArm (val : Nat)
  /-- PARAPET_DISARM (R394). A write of 0 to ERR_PCTL.ARM kills the Parapet task, asserts both outputs and sets LATCH. -/
  | parapetDisarm (val : Nat)
  /-- PARAPET_CLR (R396). A write of ERR_PCTL.CLR clears LATCH while no Parapet task runs. -/
  | parapetClr
  /-- PARAPET_DESIGNATE (R400). An ERR_PDES write designates the Parapet cores and image while unarmed. -/
  | parapetDesignate (val : Nat)
  /-- PARAPET_PREEMPT (R395). On a trigger, each Parapet core waits for its post-commit region, discards its gang, breaks the lease, clears and starts the Parapet context. -/
  | parapetPreempt (core : Nat)
  /-- HALT_REQUEST (R396). A Parapet core's write of ERR_PHALT goes to the comparator, which sets or latches the halt outputs on a pair. -/
  | haltRequest (core : Nat) (val : Nat)
  /-- PARTNER_TIMEOUT (R396). A halt request's partner has not arrived within 1 µs and the outputs latch asserted. -/
  | partnerTimeout
  /-- PARAPET_DEADLINE (R398). The Parapet task has not halted within DEAD µs; the outputs latch and the task is killed. -/
  | parapetDeadline
  /-- OUTPUT_SENSE (R430). A halt output sensed against its driven level for over 10 µs latches both outputs asserted. -/
  | outputSense (out : Nat)
  /-- ERR_CORR_CLR (R399). A write of ERR_CORR.CLR zeroes the correction counters. -/
  | errCorrClr (core : Nat)
  /-- DEBUG_STOP (R117). System software stops one core's strand for inspection. -/
  | debugStop (core : Nat)
  /-- DEBUG_RESUME (R117). System software resumes a stopped strand. -/
  | debugResume (core : Nat)
  /-- CONTEXT_CONFIGURE (R353). System software configures a scheduler context with levels, weight, queue, counters and pipeline instance. -/
  | contextConfigure (ctx : Nat) (cfg : CtxConfig)
  /-- PIPELINE_INSTANCE_CREATE (R205). System software creates a pipeline instance, giving each partition its named slots. -/
  | pipelineInstanceCreate (ctx : Nat) (req : InstReq)
  /-- PIPELINE_INSTANCE_DESTROY (R221). System software destroys an instance and reclaims its partitions. -/
  | pipelineInstanceDestroy (ctx : Nat)
  /-- CARVE_SET (R186). System software changes a cluster's carve size. -/
  | carveSet (cluster : Nat) (units : Nat)
  /-- PUBLISHED_BUFFER_CREATE (R236). System software creates a published buffer from a descriptor. -/
  | publishedBufferCreate (ctx : Nat) (handle : Nat) (desc : BufDesc)
  /-- APERTURE_CREATE (R244). System software sets a transformed aperture descriptor. -/
  | apertureCreate (ctx : Nat) (i : Nat) (desc : ApDesc)
  /-- STREAM_CREATE (R325). System software creates a codec stream from a descriptor, allotting decode slots. -/
  | streamCreate (stream : Nat) (ctx : Nat) (desc : StreamDesc)
  /-- XID_RECORD_WRITE (R403). System software writes a translation context record. -/
  | xidRecordWrite (xid : Nat) (xrec : XidRec)
  /-- CONTEXT_UNFENCE (R382). System software unfences a context; its stream's next frame is cold. -/
  | contextUnfence (ctx : Nat)
  /-- RETURN_TO_SERVICE (R383). System software returns a fenced core, Girder, cluster or stack domain to service. -/
  | returnToService (unit : UnitId)
  /-- PREDICTIVE_FAILURE (R401). Per-window check of corrected-error counts raises voltage or reports a predictive failure and fences the unit. -/
  | predictiveFailure (unit : UnitId)
  /-- INVAL_PAGE (R411). XLT_INVC.GO with MODE 0 starts invalidation of one page of an XID. -/
  | invalPage (xid : Nat) (page : Nat)
  /-- INVAL_XID (R411). XLT_INVC.GO with MODE 1 starts invalidation of all entries of an XID. -/
  | invalXid (xid : Nat)
  /-- INVAL_ALL (R411). XLT_INVC.GO with MODE 2 starts invalidation of all XIDs. -/
  | invalAll
  /-- INVALIDATION_DONE (R411). BUSY clears once matching entries are removed and accesses that used them have performed. -/
  | invalidationDone
  /-- PAGE_WALK (R410). A walker serves a TLB miss from its queue, reading page-table entries at their homes. -/
  | pageWalk (stack : Nat) (walker : Nat)
  /-- PAGE_MIGRATION (R413). System software moves a compressed page to a new frame through MIG and invalidations. -/
  | pageMigration (xid : Nat) (va : Nat) (frame : Nat) (phase : Nat)
  /-- DIRTY_LINE_DRAIN (R231). Dirty-line FIFOs write lines to the slice or home in the background. -/
  | dirtyLineDrain (lv : CmLevel) (unit : Nat) (i : Nat)
  /-- WST_REFRESH_SLOT (R226). A weight-store bank group enters its refresh slot, stalling its reads until the slot ends. -/
  | wstRefreshSlot (group : Nat)
  /-- INBOUND_WRITE (R421). An inbound PCIe write through BAR2 reaches a physical frame at its home. -/
  | inboundWrite (fn : Nat) (off : Nat) (bytes : List Nat)
  /-- INBOUND_READ (R420). An inbound PCIe read through BAR2, served at the home or in HBM for No Snoop. -/
  | inboundRead (fn : Nat) (off : Nat) (n : Nat) (noSnoop : Bool)
  /-- INBOUND_ATOMIC (R425). An inbound AtomicOp applied at the home at .device. -/
  | inboundAtomic (fn : Nat) (off : Nat) (op : HostAtomic) (sz : WSize)
  /-- ATS_INVALIDATION (R423). An ATS Invalidation Request removes cached translations and completes after their accesses. -/
  | atsInvalidation (fn : Nat) (pasid : Nat) (page : Nat) (n : Nat)
  /-- MSIX_UNMASK (R422). Unmasking a vector with its pending bit set sends one message. -/
  | msixUnmask (vec : Nat)
  /-- IDE_KEY_PROGRAM (R426). IDE_KM keying of a link or selective IDE stream. -/
  | ideKeyProgram (stream : Nat) (key : Nat)
  /-- GET_VERSION (R427). SPDM request answered with the supported versions. -/
  | getVersion
  /-- GET_CAPABILITIES (R427). SPDM request answered with the responder capabilities. -/
  | getCapabilities
  /-- NEGOTIATE_ALGORITHMS (R427). SPDM request fixing Ed448 and SHA3-512. -/
  | negotiateAlgorithms (asym : Nat) (hash : Nat)
  /-- GET_DIGESTS (R427). SPDM request returning certificate chain digests. -/
  | getDigests
  /-- GET_CERTIFICATE (R427). SPDM request returning a certificate chain. -/
  | getCertificate (slot : Nat) (off : Nat) (len : Nat)
  /-- SET_CERTIFICATE (R427). SPDM request setting a certificate chain in slots 1 to 7. -/
  | setCertificate (slot : Nat) (chain : List Nat)
  /-- CHALLENGE (R427). SPDM challenge signed with the identity key. -/
  | challenge (slot : Nat) (nonce : Nat)
  /-- GET_MEASUREMENTS (R428). SPDM request returning signed measurement blocks, computing block 4 at the request. -/
  | getMeasurements (idx : Nat) (nonce : Nat)
  /-- KEY_EXCHANGE (R427). SPDM key exchange starting a secure session. -/
  | keyExchange (slot : Nat) (nonce : Nat)
  /-- FINISH (R427). SPDM FINISH completing session establishment. -/
  | finish (mac : Nat)
  /-- END_SESSION (R427). SPDM request ending a session. -/
  | endSession
  /-- LINK_TRAINING (R416). PCIe link trains at a supported width and rate in FLIT mode or stays down. -/
  | linkTraining (width : Nat) (rate : Nat) (flit : Bool)
  /-- VF_FLR (R417). A VF Function Level Reset fences every context the VF owns. -/
  | vfFlr (fn : Nat)
  /-- PF_FLR (R417). A PF Function Level Reset resets the device. -/
  | pfFlr
  /-- POWER_GOOD (R431). After power-good or reset the management core runs the boot sequence to READY or recovery. -/
  | powerGood (r : BootResult)
  /-- POWER_LOSS (R397). Loss of power asserts both halt outputs. -/
  | powerLoss
  /-- POWER_LIMIT (R437). The limiter's 10 ms average above PLIM delays Girder command starts and then placements. -/
  | powerLimit (watts : Nat)
  /-- THERMAL_LIMIT (R439). A junction temperature threshold is crossed, slowing Girders, stopping placements or resetting. -/
  | thermalLimit (celsius : Nat)
  /-- CORE_GATE (R438). A core free for 10 µs reaches its commit point and gates. -/
  | coreGate (core : Nat)
  /-- CLUSTER_GATE (R438). A cluster with all cores gated and nothing held cleans its slice and gates. -/
  | clusterGate (cluster : Nat)
  /-- HBM_SELF_REFRESH (R438). A stack with no access for 50 µs enters self-refresh. -/
  | hbmSelfRefresh (stack : Nat)
  /-- POWER_WAKE (R402). A placement, mailbox write or peer access wakes a gated unit after its exit latency. -/
  | powerWake (unit : UnitId)
  /-- STORE_PERFORMED (R147). A token-tracked store (a write-port operand, a VSCAT element set or a TST) performs, and its token count drops by 1. -/
  | storePerformed (core : Nat) (i : Nat)
  /-- MANAGEMENT_PATH_WRITE (R275). System software writes a privileged register such as GIR_LEASE_LEN, GIR_LEASE_CYC, GIR_MIG_WAIT, SCH_AGE or SCH_QUANT through the management path, with its limit check and deferred effect. -/
  | managementPathWrite (unit : Nat) (idx : Nat) (val : Nat)
  /-- PAGE_RETIRE (R381). System software retires a poisoned page through Virvar. -/
  | pageRetire (page : Nat)
  /-- STREAM_RECLAIM (R333). System software reclaims a stream's decode slots, discarding its tile state. -/
  | streamReclaim (stream : Nat)
  /-- FLASH_REWRITE (R432). In the recovery state, system software rewrites the board flash through the Virvar command window. -/
  | flashRewrite (bytes : List Nat)
  /-- PINNED_SERVICE_WITHDRAWAL (R364). System software withdraws a core from the scheduler as a pinned service, or returns it. -/
  | pinnedServiceWithdrawal (core : Nat) (back : Bool)
  deriving DecidableEq, Repr, Inhabited

end Sys2Proof
end

