-- ==== Sys2Proof/WellFormed.lean ====
section
/-! DEFINITION. Which words' terms the encodings of spec/03_encoding_and_assembly.md allow: every field fits
its bits and holds no reserved value (R52, R54 to R70, and the reserved values each instruction's own rule
names). Events and commands have no word; they are well formed as they stand. -/

namespace Sys2Proof

/-- A guard's fields fit (R54). -/
def Guard.ok : Guard → Bool
  | .always => true
  | .cond c gs => decide (c < 4) && decide (gs < 2)

/-- A vector source field is assigned (Table 3.4). -/
def VSrc.ok : VSrc → Bool
  | .reg n => decide (n < 32)
  | .port n => decide (n < 4)
  | .q => true
  | .zero => true

/-- A vector destination field is assigned (Table 3.4). -/
def VDst.ok : VDst → Bool
  | .reg n => decide (n < 32)
  | .port n => decide (n < 4)

/-- An event selector's fields fit (R113). -/
def EvSel.ok : EvSel → Bool
  | .one e => decide (e < 32)
  | .mask a => decide (a < 32)

/-- The term stands for a word that R52 does not refuse. -/
def Instr.wellFormed : Instr → Bool
  | .nop => true
  | .alu f d a b g => decide (d < 32) && decide (a < 32) && decide (b < 32) && g.ok && ((f != .clz && f != .popc) || b == 0)
  | .muldiv _ d a b g => decide (d < 32) && decide (a < 32) && decide (b < 32) && g.ok
  | .addi d a imm => decide (d < 32) && decide (a < 32) && decide (imm < 16384)
  | .andi d a imm => decide (d < 32) && decide (a < 32) && decide (imm < 16384)
  | .ori d a imm => decide (d < 32) && decide (a < 32) && decide (imm < 16384)
  | .xori d a imm => decide (d < 32) && decide (a < 32) && decide (imm < 16384)
  | .shli d a cnt => decide (d < 32) && decide (a < 32) && decide (cnt < 64)
  | .shri d a cnt => decide (d < 32) && decide (a < 32) && decide (cnt < 64)
  | .srai d a cnt => decide (d < 32) && decide (a < 32) && decide (cnt < 64)
  | .lui d imm => decide (d < 32) && decide (imm < 524288)
  | .luh d imm => decide (d < 32) && decide (imm < 524288)
  | .cmp _ c a b g => decide (c < 4) && decide (a < 32) && decide (b < 32) && g.ok
  | .cmpi _ c a imm => decide (c < 4) && decide (a < 32) && decide (imm < 16384)
  | .lea d a b sh g => decide (d < 32) && decide (a < 32) && decide (b < 32) && decide (sh < 4) && g.ok
  | .ctos d g => decide (d < 32) && g.ok
  | .stoc a g => decide (a < 32) && g.ok
  | .ld d a oc _ off => decide (d < 32) && decide (a < 32) && decide (oc < 16) && decide (off < 256)
  | .lds d a oc sz off => decide (d < 32) && decide (a < 32) && decide (oc < 16) && decide (off < 256) && (sz != .dbl)
  | .st d a oc _ off => decide (d < 32) && decide (a < 32) && decide (oc < 16) && decide (off < 256)
  | .lda d a oc _ _ off => decide (d < 32) && decide (a < 32) && decide (oc < 16) && decide (off < 32)
  | .stl d a oc _ _ off => decide (d < 32) && decide (a < 32) && decide (oc < 16) && decide (off < 32)
  | .amo f d a b _ sz => decide (d < 32) && decide (a < 32) && decide (b < 32) && (f != .fadd32 || sz == .word)
  | .cas d a b _ _ => decide (d < 32) && decide (a < 32) && decide (b < 32)
  | .fence _ _ cm => decide (cm < 65536) && (cm != 0)
  | .cmaint _ _ a b g => decide (a < 32) && decide (b < 32) && g.ok
  | .waita _ _ d a b g => decide (d < 32) && decide (a < 32) && decide (b < 32) && g.ok
  | .barArrive d a g => decide (d < 32) && decide (a < 32) && g.ok
  | .barExpect a b g => decide (a < 32) && decide (b < 32) && g.ok
  | .barWait a b g => decide (a < 32) && decide (b < 32) && g.ok
  | .barArriveExpect d a b g => decide (d < 32) && decide (a < 32) && decide (b < 32) && g.ok
  | .fput a b g => decide (a < 32) && decide (b < 32) && g.ok
  | .fget d a g => decide (d < 32) && decide (a < 32) && g.ok
  | .fpeek d a g => decide (d < 32) && decide (a < 32) && g.ok
  | .ptg bt imm => decide (bt < 8) && decide (imm < 2097152)
  | .xfer bt l u ci cs bm => decide (bt < 8) && decide (l < 2) && decide (u < 2) && decide (ci < 4) && decide (cs < 2) && decide (bm < 8) && (u == 0 || (ci == 0 && cs == 0))
  | .trap d code => decide (d < 32) && decide (code < 524288)
  | .halt => true
  | .wait m => decide (m < 256)
  | .evwait e _ => e.ok
  | .evsig e => e.ok
  | .evclr e => e.ok
  | .qpush sel a => decide (sel < 4) && decide (a < 32) && (sel < 3)
  | .qpop sel d => decide (sel < 4) && decide (d < 32) && (sel < 3)
  | .fpush a => decide (a < 32)
  | .pset p a => decide (p < 4) && decide (a < 32)
  | .qmark m => decide (m < 16) && (m != 0)
  | .sqdrain sel => decide (sel < 2)
  | .talloc _ d a b g => decide (d < 32) && decide (a < 32) && decide (b < 32) && g.ok
  | .tseal a g => decide (a < 32) && g.ok
  | .tread d a g => decide (d < 32) && decide (a < 32) && g.ok
  | .tret a g => decide (a < 32) && g.ok
  | .spawn a g => decide (a < 32) && g.ok
  | .join d a g => decide (d < 32) && decide (a < 32) && g.ok
  | .commit => true
  | .yield => true
  | .sysrd d idx => decide (d < 32) && decide (idx < 4096)
  | .syswr a idx => decide (a < 32) && decide (idx < 4096)
  | .psnap d a g => decide (d < 32) && decide (a < 32) && g.ok
  | .prel a g => decide (a < 32) && g.ok
  | .vnop => true
  | .vadd d a b ty s u => d.ok && a.ok && b.ok && decide (s < 2) && decide (u < 2) && (u == 0 || ty.isInt) && (s == 0 || ty.isInt || ty == .e5m2)
  | .vsub d a b ty s u => d.ok && a.ok && b.ok && decide (s < 2) && decide (u < 2) && (u == 0 || ty.isInt) && (s == 0 || ty.isInt || ty == .e5m2)
  | .vmul d a b ty s u => d.ok && a.ok && b.ok && decide (s < 2) && decide (u < 2) && (u == 0 || ty.isInt) && (s == 0 || ty.isInt || ty == .e5m2)
  | .vfma d a b ty s u => d.ok && a.ok && b.ok && decide (s < 2) && decide (u < 2) && (u == 0 || ty.isInt) && (s == 0 || ty.isInt || ty == .e5m2) && d.isReg
  | .vfnma d a b ty s u => d.ok && a.ok && b.ok && decide (s < 2) && decide (u < 2) && (u == 0 || ty.isInt) && (s == 0 || ty.isInt || ty == .e5m2) && d.isReg
  | .vmin d a b ty u => d.ok && a.ok && b.ok && decide (u < 2) && (u == 0 || ty.isInt)
  | .vmax d a b ty u => d.ok && a.ok && b.ok && decide (u < 2) && (u == 0 || ty.isInt)
  | .vun f d a ty => d.ok && a.ok && (f == .abs || f == .neg || ty.isInt)
  | .vlog _ d a b _ => d.ok && a.ok && b.ok
  | .vsh _ d a b ty => d.ok && a.ok && b.ok && ty.isInt
  | .vaddi d a imm => d.ok && a.ok && decide (imm < 4096)
  | .vmulw d a b ty u => d.ok && a.ok && b.ok && decide (u < 2) && (u == 0 || ty.isInt) && ty.isNarrow
  | .vaddw d a b ty s u => d.ok && a.ok && b.ok && decide (s < 2) && decide (u < 2) && (u == 0 || ty.isInt) && (s == 0 || ty.isInt) && ty.isNarrow
  | .vnarr d a ty s u => d.ok && a.ok && decide (s < 2) && decide (u < 2) && (u == 0 || ty.isInt) && (s == 0 || ty.isInt || ty == .e5m2) && ty.isNarrow
  | .vcmp _ u a b ty => decide (u < 2) && a.ok && b.ok && (u == 0 || ty.isInt)
  | .velse => true
  | .vend => true
  | .vvote q all => decide (q < 8) && decide (all < 2) && (q != 0)
  | .vsel d a b _ => d.ok && a.ok && b.ok
  | .vbq s imm => decide (s < 2) && decide (imm < 2097152)
  | .vcvt d a _ sty ty s u => d.ok && a.ok && decide (s < 2) && decide (u < 2) && (u == 0 || ty.isInt || sty.isInt) && (s == 0 || ty.isInt || ty == .e5m2)
  | .vquant d a b ty s => d.ok && a.ok && b.ok && decide (s < 2) && ty.isCode && (s == 0 || ty == .e5m2)
  | .vdeq d a b ty => d.ok && a.ok && b.ok && ty.isCode
  | .vrint d a ty _ => d.ok && a.ok && !ty.isInt
  | .vexp2f d a => d.ok && a.ok
  | .vscaleb d a b => d.ok && a.ok && b.ok
  | .vrcp d a ty => d.ok && a.ok && ty.isWideFloat
  | .vrsq d a ty => d.ok && a.ok && ty.isWideFloat
  | .vred _ d a _ => d.ok && a.ok
  | .vtopk d a b _ => d.ok && a.ok && b.ok
  | .vperm d a b _ => d.ok && a.ok && b.ok
  | .vshuf d a b _ => d.ok && a.ok && b.ok && d.isReg
  | .vbcast d a w idx => d.ok && a.ok && decide (idx < 128) && (idx < w.lanes)
  | .viota d imm => d.ok && decide (imm < 4096)
  | .vslide d a _ n => d.ok && a.ok && decide (n < 256)
  | .vtr d t _ idx _ _ => d.ok && decide (t < 8) && decide (idx < 64)
  | .vtw a t _ idx _ _ => a.ok && decide (t < 8) && decide (idx < 64)
  | .vqpush q a => decide (q < 2) && a.ok
  | .vqdrain => true
  | .vwait m => decide (m < 256)
  | .vamo f d a w sc sg ty => d.ok && a.ok && decide (w < 8) && decide (sc < 4) && decide (sg < 2) && (if f == .fadd then ty == .fp32 else ty == .i32)
  | .vgath d a w sc sg _ => d.ok && a.ok && decide (w < 8) && decide (sc < 4) && decide (sg < 2) && d.isReg
  | .vscat d a w sc sg _ => d.ok && a.ok && decide (w < 8) && decide (sc < 4) && decide (sg < 2)
  | .mnop => true
  | .tcfg d keep _ => decide (d < 8) && decide (keep < 2)
  | .tzero d => decide (d < 8)
  | .tld d _ oc w => decide (d < 8) && decide (oc < 16) && decide (w < 8)
  | .tst a _ oc w => decide (a < 8) && decide (oc < 16) && decide (w < 8)
  | .tmov d _ a _ => decide (d < 8) && decide (a < 8)
  | .tscal d _ a _ => decide (d < 8) && decide (a < 8)
  | .tadd d _ a _ b _ => decide (d < 8) && decide (a < 8) && decide (b < 8)
  | .mlease => true
  | .mfree => true
  | .mmark => true
  | .mset k f imm => decide (k < 4) && decide (f < 64) && decide (imm < 65536)
  | .msetq k f => decide (k < 4) && decide (f < 64) && (f <= 60)
  | .missue k q => decide (k < 4) && decide (q < 2)
  | .mwait m => decide (m < 256)
  | .mbq s imm => decide (s < 2) && decide (imm < 2097152)
  | .mqdrain => true
  | .mbond n imm => decide (n < 16) && decide (imm < 65536)
  | .morder => true
  | .kload => true
  | .kperm f r => decide (f < 2) && decide (r < 2)
  | .cnop => true
  | .cset k f imm => decide (k < 4) && decide (f < 64) && decide (imm < 65536)
  | .csetq k f => decide (k < 4) && decide (f < 64) && (f <= 60)
  | .cissue k q => decide (k < 4) && decide (q < 2)
  | .ccode i => decide (i < 16)
  | .cwait m => decide (m < 256)
  | .cbq s imm => decide (s < 2) && decide (imm < 2097152)
  | .cqdrain => true
  | .cmlist l w => decide (l < 64) && decide (w < 8)
  | .waitaTimeout _ => true
  | .keystoneRewrite _ => true
  | .cmlistListWrite _ _ => true
  | .memoryReturn _ _ => true
  | .copy _ _ => true
  | .copyz _ _ => true
  | .gathl _ _ => true
  | .scatl _ _ => true
  | .motion _ _ => true
  | .pgath _ _ => true
  | .fill _ _ => true
  | .wstore _ _ => true
  | .commandCompletion _ => true
  | .gemm _ => true
  | .conv _ => true
  | .chain _ => true
  | .accrd _ => true
  | .accz _ => true
  | .wload _ => true
  | .girderMigration _ _ _ => true
  | .leaseGrant _ => true
  | .leaseLapseCycles _ => true
  | .watchdog _ => true
  | .postcommitLong _ => true
  | .commitStep _ => true
  | .haltBundleRetire _ => true
  | .launchMailbox _ _ => true
  | .dispatch => true
  | .quotaEvaluation => true
  | .spillRefill => true
  | .bootMailbox _ _ _ => true
  | .strandStart _ => true
  | .imageRegister _ _ _ => true
  | .bitstreamWrite _ _ => true
  | .frameDelivery _ _ => true
  | .decodeError _ => true
  | .layerDecision _ _ => true
  | .cmuDeferredWrite _ _ _ => true
  | .slipwWrite _ _ => true
  | .keyCtlWrite _ _ => true
  | .parapetFire _ => true
  | .parapetArm _ => true
  | .parapetDisarm _ => true
  | .parapetClr => true
  | .parapetDesignate _ => true
  | .parapetPreempt _ => true
  | .haltRequest _ _ => true
  | .partnerTimeout => true
  | .parapetDeadline => true
  | .outputSense _ => true
  | .errCorrClr _ => true
  | .debugStop _ => true
  | .debugResume _ => true
  | .contextConfigure _ _ => true
  | .pipelineInstanceCreate _ _ => true
  | .pipelineInstanceDestroy _ => true
  | .carveSet _ _ => true
  | .publishedBufferCreate _ _ _ => true
  | .apertureCreate _ _ _ => true
  | .streamCreate _ _ _ => true
  | .xidRecordWrite _ _ => true
  | .contextUnfence _ => true
  | .returnToService _ => true
  | .predictiveFailure _ => true
  | .invalPage _ _ => true
  | .invalXid _ => true
  | .invalAll => true
  | .invalidationDone => true
  | .pageWalk _ _ => true
  | .pageMigration _ _ _ _ => true
  | .dirtyLineDrain _ _ _ => true
  | .wstRefreshSlot _ => true
  | .inboundWrite _ _ _ => true
  | .inboundRead _ _ _ _ => true
  | .inboundAtomic _ _ _ _ => true
  | .atsInvalidation _ _ _ _ => true
  | .msixUnmask _ => true
  | .ideKeyProgram _ _ => true
  | .getVersion => true
  | .getCapabilities => true
  | .negotiateAlgorithms _ _ => true
  | .getDigests => true
  | .getCertificate _ _ _ => true
  | .setCertificate _ _ => true
  | .challenge _ _ => true
  | .getMeasurements _ _ => true
  | .keyExchange _ _ => true
  | .finish _ => true
  | .endSession => true
  | .linkTraining _ _ _ => true
  | .vfFlr _ => true
  | .pfFlr => true
  | .powerGood _ => true
  | .powerLoss => true
  | .powerLimit _ => true
  | .thermalLimit _ => true
  | .coreGate _ => true
  | .clusterGate _ => true
  | .hbmSelfRefresh _ => true
  | .powerWake _ => true
  | .storePerformed _ _ => true
  | .managementPathWrite _ _ _ => true
  | .pageRetire _ => true
  | .streamReclaim _ => true
  | .flashRewrite _ => true
  | .pinnedServiceWithdrawal _ _ => true

end Sys2Proof
end

