-- ==== Sys2Proof/Decode.lean ====
section
/-! DEFINITION. Decoding of instruction words (spec/03_encoding_and_assembly.md, Tables 3.1 to 3.12) and, after
it, the encoder written from the same tables. decodeWord is total: a word that no row accepts is rejected by
name, and the step turns that rejection into ILLEGAL_ENCODING (R52). -/

namespace Sys2Proof

/-- Why a word has no instruction (R52). -/
inductive DecodeError where
  /-- The OP is unallocated for its tag (R67 to R70). -/
  | unallocated (tag op : Nat)
  /-- A bit that the format requires to be zero is set. -/
  | mustBeZero (mnemonic : String)
  /-- A field holds a value that the format or the description does not assign. -/
  | reserved (mnemonic : String)
  /-- Fewer than four bytes were given. -/
  | short
  deriving DecidableEq, Repr

/-- Bits lo + w - 1 down to lo of x. -/
def bits (x lo w : Nat) : Nat := x / 2 ^ lo % 2 ^ w

/-- Code of Functions of ALU (Table 6.1, R121). -/
def AluFn.code : AluFn → Nat
  | .add => 0
  | .sub => 1
  | .and => 2
  | .or => 3
  | .xor => 4
  | .andn => 5
  | .shl => 6
  | .shr => 7
  | .sra => 8
  | .rol => 9
  | .min => 10
  | .max => 11
  | .minu => 12
  | .maxu => 13
  | .clz => 14
  | .popc => 15
  | .sel => 16

/-- Inverse of AluFn.code; none for a reserved code. -/
def AluFn.ofCode : Nat → Option AluFn
  | 0 => some .add
  | 1 => some .sub
  | 2 => some .and
  | 3 => some .or
  | 4 => some .xor
  | 5 => some .andn
  | 6 => some .shl
  | 7 => some .shr
  | 8 => some .sra
  | 9 => some .rol
  | 10 => some .min
  | 11 => some .max
  | 12 => some .minu
  | 13 => some .maxu
  | 14 => some .clz
  | 15 => some .popc
  | 16 => some .sel
  | _ => none

/-- Code of Functions of MULDIV (R122). -/
def MulFn.code : MulFn → Nat
  | .mul => 0
  | .mulh => 1
  | .mulhu => 2
  | .div => 3
  | .divu => 4
  | .rem => 5
  | .remu => 6

/-- Inverse of MulFn.code; none for a reserved code. -/
def MulFn.ofCode : Nat → Option MulFn
  | 0 => some .mul
  | 1 => some .mulh
  | 2 => some .mulhu
  | 3 => some .div
  | 4 => some .divu
  | 5 => some .rem
  | 6 => some .remu
  | _ => none

/-- Code of Access sizes of format SM (R3). -/
def Size.code : Size → Nat
  | .byte => 0
  | .half => 1
  | .word => 2
  | .dbl => 3

/-- Inverse of Size.code; none for a reserved code. -/
def Size.ofCode : Nat → Option Size
  | 0 => some .byte
  | 1 => some .half
  | 2 => some .word
  | 3 => some .dbl
  | _ => none

/-- Code of Word or double (formats SMA and SAM, R55). -/
def WSize.code : WSize → Nat
  | .word => 0
  | .dbl => 1

/-- Inverse of WSize.code; none for a reserved code. -/
def WSize.ofCode : Nat → Option WSize
  | 0 => some .word
  | 1 => some .dbl
  | _ => none

/-- Code of Scopes (R12, R55). -/
def Scope.code : Scope → Nat
  | .core => 0
  | .cluster => 1
  | .stack => 2
  | .device => 3
  | .system => 4

/-- Inverse of Scope.code; none for a reserved code. -/
def Scope.ofCode : Nat → Option Scope
  | 0 => some .core
  | 1 => some .cluster
  | 2 => some .stack
  | 3 => some .device
  | 4 => some .system
  | _ => none

/-- Code of FENCE kinds (Table 11.5). -/
def FenceKind.code : FenceKind → Nat
  | .full => 0
  | .acq => 1
  | .rel => 2

/-- Inverse of FenceKind.code; none for a reserved code. -/
def FenceKind.ofCode : Nat → Option FenceKind
  | 0 => some .full
  | 1 => some .acq
  | 2 => some .rel
  | _ => none

/-- Code of CMAINT operations (R235). -/
def CmOp.code : CmOp → Nat
  | .clean => 0
  | .inv => 1
  | .cinv => 2

/-- Inverse of CmOp.code; none for a reserved code. -/
def CmOp.ofCode : Nat → Option CmOp
  | 0 => some .clean
  | 1 => some .inv
  | 2 => some .cinv
  | _ => none

/-- Code of CMAINT levels (R235). -/
def CmLevel.code : CmLevel → Nat
  | .l1 => 0
  | .slice => 1
  | .msc => 2

/-- Inverse of CmLevel.code; none for a reserved code. -/
def CmLevel.ofCode : Nat → Option CmLevel
  | 0 => some .l1
  | 1 => some .slice
  | 2 => some .msc
  | _ => none

/-- Code of AMO functions (R131). -/
def AmoFn.code : AmoFn → Nat
  | .add => 0
  | .and => 1
  | .or => 2
  | .xor => 3
  | .min => 4
  | .max => 5
  | .minu => 6
  | .maxu => 7
  | .swap => 8
  | .fadd32 => 9

/-- Inverse of AmoFn.code; none for a reserved code. -/
def AmoFn.ofCode : Nat → Option AmoFn
  | 0 => some .add
  | 1 => some .and
  | 2 => some .or
  | 3 => some .xor
  | 4 => some .min
  | 5 => some .max
  | 6 => some .minu
  | 7 => some .maxu
  | 8 => some .swap
  | 9 => some .fadd32
  | _ => none

/-- Code of Lane types TY (Table 8.1). -/
def VTy.code : VTy → Nat
  | .i8 => 0
  | .i16 => 1
  | .i32 => 2
  | .bf16 => 3
  | .fp16 => 4
  | .fp32 => 5
  | .e4m3 => 6
  | .e5m2 => 7

/-- Inverse of VTy.code; none for a reserved code. -/
def VTy.ofCode : Nat → Option VTy
  | 0 => some .i8
  | 1 => some .i16
  | 2 => some .i32
  | 3 => some .bf16
  | 4 => some .fp16
  | 5 => some .fp32
  | 6 => some .e4m3
  | 7 => some .e5m2
  | _ => none

/-- Code of VUN functions (R156). -/
def VUnFn.code : VUnFn → Nat
  | .abs => 0
  | .neg => 1
  | .not => 2
  | .clz => 3
  | .popc => 4

/-- Inverse of VUnFn.code; none for a reserved code. -/
def VUnFn.ofCode : Nat → Option VUnFn
  | 0 => some .abs
  | 1 => some .neg
  | 2 => some .not
  | 3 => some .clz
  | 4 => some .popc
  | _ => none

/-- Code of VLOG functions (R157). -/
def VLogFn.code : VLogFn → Nat
  | .and => 0
  | .or => 1
  | .xor => 2
  | .andn => 3

/-- Inverse of VLogFn.code; none for a reserved code. -/
def VLogFn.ofCode : Nat → Option VLogFn
  | 0 => some .and
  | 1 => some .or
  | 2 => some .xor
  | 3 => some .andn
  | _ => none

/-- Code of VSH functions (R158). -/
def VShFn.code : VShFn → Nat
  | .shl => 0
  | .shr => 1
  | .sra => 2

/-- Inverse of VShFn.code; none for a reserved code. -/
def VShFn.ofCode : Nat → Option VShFn
  | 0 => some .shl
  | 1 => some .shr
  | 2 => some .sra
  | _ => none

/-- Code of VCMP relations (R94). -/
def VRel.code : VRel → Nat
  | .eq => 0
  | .ne => 1
  | .lt => 2
  | .ge => 3
  | .le => 4
  | .gt => 5

/-- Inverse of VRel.code; none for a reserved code. -/
def VRel.ofCode : Nat → Option VRel
  | 0 => some .eq
  | 1 => some .ne
  | 2 => some .lt
  | 3 => some .ge
  | 4 => some .le
  | 5 => some .gt
  | _ => none

/-- Code of VRED functions (R173). -/
def VRedFn.code : VRedFn → Nat
  | .sum => 0
  | .max => 1
  | .min => 2

/-- Inverse of VRedFn.code; none for a reserved code. -/
def VRedFn.ofCode : Nat → Option VRedFn
  | 0 => some .sum
  | 1 => some .max
  | 2 => some .min
  | _ => none

/-- Code of VAMO functions (R182). -/
def VAmoFn.code : VAmoFn → Nat
  | .add => 0
  | .fadd => 1
  | .max => 2

/-- Inverse of VAmoFn.code; none for a reserved code. -/
def VAmoFn.ofCode : Nat → Option VAmoFn
  | 0 => some .add
  | 1 => some .fadd
  | 2 => some .max
  | _ => none

/-- Code of Lane width codes of VI words (R176). -/
def LaneW.code : LaneW → Nat
  | .w8 => 0
  | .w16 => 1
  | .w32 => 2

/-- Inverse of LaneW.code; none for a reserved code. -/
def LaneW.ofCode : Nat → Option LaneW
  | 0 => some .w8
  | 1 => some .w16
  | 2 => some .w32
  | _ => none

/-- Code of Rounding modes (Table 2.4). -/
def Rnd.code : Rnd → Nat
  | .rne => 0
  | .rtz => 1
  | .rdn => 2
  | .rup => 3

/-- Inverse of Rnd.code; none for a reserved code. -/
def Rnd.ofCode : Nat → Option Rnd
  | 0 => some .rne
  | 1 => some .rtz
  | 2 => some .rdn
  | 3 => some .rup
  | _ => none

/-- Code of Tile directions (R63, R107). -/
def Dir.code : Dir → Nat
  | .row => 0
  | .col => 1
  | .diag => 2
  | .adiag => 3

/-- Inverse of Dir.code; none for a reserved code. -/
def Dir.ofCode : Nat → Option Dir
  | 0 => some .row
  | 1 => some .col
  | 2 => some .diag
  | 3 => some .adiag
  | _ => none

/-- Code of Tile types (Table 5.2). -/
def TileTy.code : TileTy → Nat
  | .int8 => 0
  | .uint8 => 1
  | .e4m3 => 2
  | .e5m2 => 3
  | .bf16 => 4
  | .fp16 => 5
  | .fp32 => 8

/-- Inverse of TileTy.code; none for a reserved code. -/
def TileTy.ofCode : Nat → Option TileTy
  | 0 => some .int8
  | 1 => some .uint8
  | 2 => some .e4m3
  | 3 => some .e5m2
  | 4 => some .bf16
  | 5 => some .fp16
  | 8 => some .fp32
  | _ => none

/-- Code of Caisson size classes (Table 10.1). -/
def TClass.code : TClass → Nat
  | .c4 => 0
  | .c16 => 1
  | .c64 => 2

/-- Inverse of TClass.code; none for a reserved code. -/
def TClass.ofCode : Nat → Option TClass
  | 0 => some .c4
  | 1 => some .c16
  | 2 => some .c64
  | _ => none

/-- Code of EVWAIT modes (R113). -/
def EvMode.code : EvMode → Nat
  | .any => 0
  | .all => 1

/-- Inverse of EvMode.code; none for a reserved code. -/
def EvMode.ofCode : Nat → Option EvMode
  | 0 => some .any
  | 1 => some .all
  | _ => none

/-- Code of Scalar relations (Table 4.3). -/
def Rel.code : Rel → Nat
  | .eq => 0
  | .ne => 1
  | .lt => 2
  | .ge => 3
  | .ltu => 4
  | .geu => 5

/-- Inverse of Rel.code; none for a reserved code. -/
def Rel.ofCode : Nat → Option Rel
  | 0 => some .eq
  | 1 => some .ne
  | 2 => some .lt
  | 3 => some .ge
  | 4 => some .ltu
  | 5 => some .geu
  | _ => none

/-- Bits 3:0 of an SA word (Table 3.1). -/
def Guard.code : Guard → Nat
  | .always => 0
  | .cond c gs => 8 + 2 * c + gs

/-- With G = 0, GC and GS must be zero (R56). -/
def Guard.ofCode (x : Nat) : Option Guard :=
  if bits x 3 1 = 1 then some (.cond (bits x 1 2) (bits x 0 1))
  else if x = 0 then some .always else none

/-- Source field of Table 3.4. -/
def VSrc.code : VSrc → Nat
  | .reg n => n
  | .port n => 32 + n
  | .q => 36
  | .zero => 37

/-- Source field of Table 3.4. -/
def VSrc.ofCode (x : Nat) : Option VSrc :=
  if x < 32 then some (.reg x)
  else if x < 36 then some (.port (x - 32))
  else if x = 36 then some .q
  else if x = 37 then some .zero
  else none

/-- Destination field of Table 3.4. -/
def VDst.code : VDst → Nat
  | .reg n => n
  | .port n => 32 + n

/-- Destination field of Table 3.4. -/
def VDst.ofCode (x : Nat) : Option VDst :=
  if x < 32 then some (.reg x)
  else if x < 36 then some (.port (x - 32))
  else none

/-- EV 23:19, A 18:14, M 13 of an SE word (R55, R67). -/
def EvSel.code : EvSel → Nat
  | .one e => e * 64
  | .mask a => a * 2 + 1

/-- With M = 0, A is zero; with M = 1, EV is zero (R67). -/
def EvSel.ofCode (x : Nat) : Option EvSel :=
  if bits x 0 1 = 0 then (if bits x 1 5 = 0 then some (.one (bits x 6 5)) else none)
  else if bits x 6 5 = 0 then some (.mask (bits x 1 5)) else none

/-- CV of a VT word (Table 8.6): none is raw. -/
def cvCode : Option VTy → Nat
  | none => 0
  | some t => 8 + t.code

/-- CV of a VT word; 1 to 7 are reserved (Table 8.6). -/
def cvOfCode (x : Nat) : Option (Option VTy) :=
  if x = 0 then some none
  else if x < 8 then none
  else (VTy.ofCode (x - 8)).map some

/-- Mnemonic of an operation, as spec/opcode_table.json has it. -/
def Instr.mnemonic : Instr → String
  | .nop => "NOP"
  | .alu _ _ _ _ _ => "ALU"
  | .muldiv _ _ _ _ _ => "MULDIV"
  | .addi _ _ _ => "ADDI"
  | .andi _ _ _ => "ANDI"
  | .ori _ _ _ => "ORI"
  | .xori _ _ _ => "XORI"
  | .shli _ _ _ => "SHLI"
  | .shri _ _ _ => "SHRI"
  | .srai _ _ _ => "SRAI"
  | .lui _ _ => "LUI"
  | .luh _ _ => "LUH"
  | .cmp _ _ _ _ _ => "CMP"
  | .cmpi _ _ _ _ => "CMPI"
  | .lea _ _ _ _ _ => "LEA"
  | .ctos _ _ => "CTOS"
  | .stoc _ _ => "STOC"
  | .ld _ _ _ _ _ => "LD"
  | .lds _ _ _ _ _ => "LDS"
  | .st _ _ _ _ _ => "ST"
  | .lda _ _ _ _ _ _ => "LDA"
  | .stl _ _ _ _ _ _ => "STL"
  | .amo _ _ _ _ _ _ => "AMO"
  | .cas _ _ _ _ _ => "CAS"
  | .fence _ _ _ => "FENCE"
  | .cmaint _ _ _ _ _ => "CMAINT"
  | .waita _ _ _ _ _ _ => "WAITA"
  | .barArrive _ _ _ => "BAR_ARRIVE"
  | .barExpect _ _ _ => "BAR_EXPECT"
  | .barWait _ _ _ => "BAR_WAIT"
  | .barArriveExpect _ _ _ _ => "BAR_ARRIVE_EXPECT"
  | .fput _ _ _ => "FPUT"
  | .fget _ _ _ => "FGET"
  | .fpeek _ _ _ => "FPEEK"
  | .ptg _ _ => "PTG"
  | .xfer _ _ _ _ _ _ => "XFER"
  | .trap _ _ => "TRAP"
  | .halt => "HALT"
  | .wait _ => "WAIT"
  | .evwait _ _ => "EVWAIT"
  | .evsig _ => "EVSIG"
  | .evclr _ => "EVCLR"
  | .qpush _ _ => "QPUSH"
  | .qpop _ _ => "QPOP"
  | .fpush _ => "FPUSH"
  | .pset _ _ => "PSET"
  | .qmark _ => "QMARK"
  | .sqdrain _ => "SQDRAIN"
  | .talloc _ _ _ _ _ => "TALLOC"
  | .tseal _ _ => "TSEAL"
  | .tread _ _ _ => "TREAD"
  | .tret _ _ => "TRET"
  | .spawn _ _ => "SPAWN"
  | .join _ _ _ => "JOIN"
  | .commit => "COMMIT"
  | .yield => "YIELD"
  | .sysrd _ _ => "SYSRD"
  | .syswr _ _ => "SYSWR"
  | .psnap _ _ _ => "PSNAP"
  | .prel _ _ => "PREL"
  | .vnop => "VNOP"
  | .vadd _ _ _ _ _ _ => "VADD"
  | .vsub _ _ _ _ _ _ => "VSUB"
  | .vmul _ _ _ _ _ _ => "VMUL"
  | .vfma _ _ _ _ _ _ => "VFMA"
  | .vfnma _ _ _ _ _ _ => "VFNMA"
  | .vmin _ _ _ _ _ => "VMIN"
  | .vmax _ _ _ _ _ => "VMAX"
  | .vun _ _ _ _ => "VUN"
  | .vlog _ _ _ _ _ => "VLOG"
  | .vsh _ _ _ _ _ => "VSH"
  | .vaddi _ _ _ => "VADDI"
  | .vmulw _ _ _ _ _ => "VMULW"
  | .vaddw _ _ _ _ _ _ => "VADDW"
  | .vnarr _ _ _ _ _ => "VNARR"
  | .vcmp _ _ _ _ _ => "VCMP"
  | .velse => "VELSE"
  | .vend => "VEND"
  | .vvote _ _ => "VVOTE"
  | .vsel _ _ _ _ => "VSEL"
  | .vbq _ _ => "VBQ"
  | .vcvt _ _ _ _ _ _ _ => "VCVT"
  | .vquant _ _ _ _ _ => "VQUANT"
  | .vdeq _ _ _ _ => "VDEQ"
  | .vrint _ _ _ _ => "VRINT"
  | .vexp2f _ _ => "VEXP2F"
  | .vscaleb _ _ _ => "VSCALEB"
  | .vrcp _ _ _ => "VRCP"
  | .vrsq _ _ _ => "VRSQ"
  | .vred _ _ _ _ => "VRED"
  | .vtopk _ _ _ _ => "VTOPK"
  | .vperm _ _ _ _ => "VPERM"
  | .vshuf _ _ _ _ => "VSHUF"
  | .vbcast _ _ _ _ => "VBCAST"
  | .viota _ _ => "VIOTA"
  | .vslide _ _ _ _ => "VSLIDE"
  | .vtr _ _ _ _ _ _ => "VTR"
  | .vtw _ _ _ _ _ _ => "VTW"
  | .vqpush _ _ => "VQPUSH"
  | .vqdrain => "VQDRAIN"
  | .vwait _ => "VWAIT"
  | .vamo _ _ _ _ _ _ _ => "VAMO"
  | .vgath _ _ _ _ _ _ => "VGATH"
  | .vscat _ _ _ _ _ _ => "VSCAT"
  | .mnop => "MNOP"
  | .tcfg _ _ _ => "TCFG"
  | .tzero _ => "TZERO"
  | .tld _ _ _ _ => "TLD"
  | .tst _ _ _ _ => "TST"
  | .tmov _ _ _ _ => "TMOV"
  | .tscal _ _ _ _ => "TSCAL"
  | .tadd _ _ _ _ _ _ => "TADD"
  | .mlease => "MLEASE"
  | .mfree => "MFREE"
  | .mmark => "MMARK"
  | .mset _ _ _ => "MSET"
  | .msetq _ _ => "MSETQ"
  | .missue _ _ => "MISSUE"
  | .mwait _ => "MWAIT"
  | .mbq _ _ => "MBQ"
  | .mqdrain => "MQDRAIN"
  | .mbond _ _ => "MBOND"
  | .morder => "MORDER"
  | .kload => "KLOAD"
  | .kperm _ _ => "KPERM"
  | .cnop => "CNOP"
  | .cset _ _ _ => "CSET"
  | .csetq _ _ => "CSETQ"
  | .cissue _ _ => "CISSUE"
  | .ccode _ => "CCODE"
  | .cwait _ => "CWAIT"
  | .cbq _ _ => "CBQ"
  | .cqdrain => "CQDRAIN"
  | .cmlist _ _ => "CMLIST"
  | .waitaTimeout _ => "WAITA_TIMEOUT"
  | .keystoneRewrite _ => "KEYSTONE_REWRITE"
  | .cmlistListWrite _ _ => "CMLIST_LIST_WRITE"
  | .memoryReturn _ _ => "MEMORY_RETURN"
  | .copy _ _ => "COPY"
  | .copyz _ _ => "COPYZ"
  | .gathl _ _ => "GATHL"
  | .scatl _ _ => "SCATL"
  | .motion _ _ => "MOTION"
  | .pgath _ _ => "PGATH"
  | .fill _ _ => "FILL"
  | .wstore _ _ => "WSTORE"
  | .commandCompletion _ => "COMMAND_COMPLETION"
  | .gemm _ => "GEMM"
  | .conv _ => "CONV"
  | .chain _ => "CHAIN"
  | .accrd _ => "ACCRD"
  | .accz _ => "ACCZ"
  | .wload _ => "WLOAD"
  | .girderMigration _ _ _ => "GIRDER_MIGRATION"
  | .leaseGrant _ => "LEASE_GRANT"
  | .leaseLapseCycles _ => "LEASE_LAPSE_CYCLES"
  | .watchdog _ => "WATCHDOG"
  | .postcommitLong _ => "POSTCOMMIT_LONG"
  | .commitStep _ => "COMMIT_STEP"
  | .haltBundleRetire _ => "HALT_BUNDLE_RETIRE"
  | .launchMailbox _ _ => "LAUNCH_MAILBOX"
  | .dispatch => "DISPATCH"
  | .quotaEvaluation => "QUOTA_EVALUATION"
  | .spillRefill => "SPILL_REFILL"
  | .bootMailbox _ _ _ => "BOOT_MAILBOX"
  | .strandStart _ => "STRAND_START"
  | .imageRegister _ _ _ => "IMAGE_REGISTER"
  | .bitstreamWrite _ _ => "BITSTREAM_WRITE"
  | .frameDelivery _ _ => "FRAME_DELIVERY"
  | .decodeError _ => "DECODE_ERROR"
  | .layerDecision _ _ => "LAYER_DECISION"
  | .cmuDeferredWrite _ _ _ => "CMU_DEFERRED_WRITE"
  | .slipwWrite _ _ => "SLIPW_WRITE"
  | .keyCtlWrite _ _ => "KEY_CTL_WRITE"
  | .parapetFire _ => "PARAPET_FIRE"
  | .parapetArm _ => "PARAPET_ARM"
  | .parapetDisarm _ => "PARAPET_DISARM"
  | .parapetClr => "PARAPET_CLR"
  | .parapetDesignate _ => "PARAPET_DESIGNATE"
  | .parapetPreempt _ => "PARAPET_PREEMPT"
  | .haltRequest _ _ => "HALT_REQUEST"
  | .partnerTimeout => "PARTNER_TIMEOUT"
  | .parapetDeadline => "PARAPET_DEADLINE"
  | .outputSense _ => "OUTPUT_SENSE"
  | .errCorrClr _ => "ERR_CORR_CLR"
  | .debugStop _ => "DEBUG_STOP"
  | .debugResume _ => "DEBUG_RESUME"
  | .contextConfigure _ _ => "CONTEXT_CONFIGURE"
  | .pipelineInstanceCreate _ _ => "PIPELINE_INSTANCE_CREATE"
  | .pipelineInstanceDestroy _ => "PIPELINE_INSTANCE_DESTROY"
  | .carveSet _ _ => "CARVE_SET"
  | .publishedBufferCreate _ _ _ => "PUBLISHED_BUFFER_CREATE"
  | .apertureCreate _ _ _ => "APERTURE_CREATE"
  | .streamCreate _ _ _ => "STREAM_CREATE"
  | .xidRecordWrite _ _ => "XID_RECORD_WRITE"
  | .contextUnfence _ => "CONTEXT_UNFENCE"
  | .returnToService _ => "RETURN_TO_SERVICE"
  | .predictiveFailure _ => "PREDICTIVE_FAILURE"
  | .invalPage _ _ => "INVAL_PAGE"
  | .invalXid _ => "INVAL_XID"
  | .invalAll => "INVAL_ALL"
  | .invalidationDone => "INVALIDATION_DONE"
  | .pageWalk _ _ => "PAGE_WALK"
  | .pageMigration _ _ _ _ => "PAGE_MIGRATION"
  | .dirtyLineDrain _ _ _ => "DIRTY_LINE_DRAIN"
  | .wstRefreshSlot _ => "WST_REFRESH_SLOT"
  | .inboundWrite _ _ _ => "INBOUND_WRITE"
  | .inboundRead _ _ _ _ => "INBOUND_READ"
  | .inboundAtomic _ _ _ _ => "INBOUND_ATOMIC"
  | .atsInvalidation _ _ _ _ => "ATS_INVALIDATION"
  | .msixUnmask _ => "MSIX_UNMASK"
  | .ideKeyProgram _ _ => "IDE_KEY_PROGRAM"
  | .getVersion => "GET_VERSION"
  | .getCapabilities => "GET_CAPABILITIES"
  | .negotiateAlgorithms _ _ => "NEGOTIATE_ALGORITHMS"
  | .getDigests => "GET_DIGESTS"
  | .getCertificate _ _ _ => "GET_CERTIFICATE"
  | .setCertificate _ _ => "SET_CERTIFICATE"
  | .challenge _ _ => "CHALLENGE"
  | .getMeasurements _ _ => "GET_MEASUREMENTS"
  | .keyExchange _ _ => "KEY_EXCHANGE"
  | .finish _ => "FINISH"
  | .endSession => "END_SESSION"
  | .linkTraining _ _ _ => "LINK_TRAINING"
  | .vfFlr _ => "VF_FLR"
  | .pfFlr => "PF_FLR"
  | .powerGood _ => "POWER_GOOD"
  | .powerLoss => "POWER_LOSS"
  | .powerLimit _ => "POWER_LIMIT"
  | .thermalLimit _ => "THERMAL_LIMIT"
  | .coreGate _ => "CORE_GATE"
  | .clusterGate _ => "CLUSTER_GATE"
  | .hbmSelfRefresh _ => "HBM_SELF_REFRESH"
  | .powerWake _ => "POWER_WAKE"
  | .storePerformed _ _ => "STORE_PERFORMED"
  | .managementPathWrite _ _ _ => "MANAGEMENT_PATH_WRITE"
  | .pageRetire _ => "PAGE_RETIRE"
  | .streamReclaim _ => "STREAM_RECLAIM"
  | .flashRewrite _ => "FLASH_REWRITE"
  | .pinnedServiceWithdrawal _ _ => "PINNED_SERVICE_WITHDRAWAL"

/-- Accept a term whose fields hold no reserved value. -/
def accept (i : Instr) : Except DecodeError Instr :=
  if i.wellFormed then .ok i else .error (.reserved i.mnemonic)

/-- A field with an unassigned code. -/
def noCode (m : String) : Except DecodeError Instr := .error (.reserved m)

/-- Require the bits of x under a mask of the table to be zero, else reject by name. -/
def whenZero (z : Nat) (m : String) (k : Except DecodeError Instr) : Except DecodeError Instr :=
  if z = 0 then k else .error (.mustBeZero m)

/-- Words of the S engine (Table 3.9): bits 29:24 are op, bits 23:0 are x. -/
def decodeS (op x : Nat) : Except DecodeError Instr :=
  match op with
  | 0 => whenZero (bits x 0 24) "NOP" <|
    accept (.nop)
  | 1 => match AluFn.ofCode (bits x 4 5), Guard.ofCode (bits x 0 4) with
    | some f, some g => accept (.alu f (bits x 19 5) (bits x 14 5) (bits x 9 5) g)
    | _, _ => noCode "ALU"
  | 2 => match MulFn.ofCode (bits x 4 5), Guard.ofCode (bits x 0 4) with
    | some f, some g => accept (.muldiv f (bits x 19 5) (bits x 14 5) (bits x 9 5) g)
    | _, _ => noCode "MULDIV"
  | 3 => accept (.addi (bits x 19 5) (bits x 14 5) (bits x 0 14))
  | 4 => accept (.andi (bits x 19 5) (bits x 14 5) (bits x 0 14))
  | 5 => accept (.ori (bits x 19 5) (bits x 14 5) (bits x 0 14))
  | 6 => accept (.xori (bits x 19 5) (bits x 14 5) (bits x 0 14))
  | 7 => whenZero (bits x 6 8) "SHLI" <|
    accept (.shli (bits x 19 5) (bits x 14 5) (bits x 0 6))
  | 8 => whenZero (bits x 6 8) "SHRI" <|
    accept (.shri (bits x 19 5) (bits x 14 5) (bits x 0 6))
  | 9 => whenZero (bits x 6 8) "SRAI" <|
    accept (.srai (bits x 19 5) (bits x 14 5) (bits x 0 6))
  | 10 => accept (.lui (bits x 19 5) (bits x 0 19))
  | 11 => accept (.luh (bits x 19 5) (bits x 0 19))
  | 12 => whenZero (bits x 21 3) "CMP" <|
    match Rel.ofCode (bits x 4 5), Guard.ofCode (bits x 0 4) with
    | some r, some g => accept (.cmp r (bits x 19 2) (bits x 14 5) (bits x 9 5) g)
    | _, _ => noCode "CMP"
  | 13 => match Rel.ofCode (bits x 21 3) with
    | some r => accept (.cmpi r (bits x 19 2) (bits x 14 5) (bits x 0 14))
    | _ => noCode "CMPI"
  | 14 => whenZero (bits x 6 3) "LEA" <|
    match Guard.ofCode (bits x 0 4) with
    | some g => accept (.lea (bits x 19 5) (bits x 14 5) (bits x 9 5) (bits x 4 2) g)
    | _ => noCode "LEA"
  | 15 =>
    match bits x 4 5 with
    | 0 => whenZero (bits x 9 10) "CTOS" <|
        match Guard.ofCode (bits x 0 4) with
        | some g => accept (.ctos (bits x 19 5) g)
        | _ => noCode "CTOS"
    | 1 => whenZero (bits x 9 5 + bits x 19 5) "STOC" <|
        match Guard.ofCode (bits x 0 4) with
        | some g => accept (.stoc (bits x 14 5) g)
        | _ => noCode "STOC"
    | _ => noCode "CTOS"
  | 16 => match Size.ofCode (bits x 8 2) with
    | some sz => accept (.ld (bits x 19 5) (bits x 14 5) (bits x 10 4) sz (bits x 0 8))
    | _ => noCode "LD"
  | 17 => match Size.ofCode (bits x 8 2) with
    | some sz => accept (.lds (bits x 19 5) (bits x 14 5) (bits x 10 4) sz (bits x 0 8))
    | _ => noCode "LDS"
  | 18 => match Size.ofCode (bits x 8 2) with
    | some sz => accept (.st (bits x 19 5) (bits x 14 5) (bits x 10 4) sz (bits x 0 8))
    | _ => noCode "ST"
  | 19 => if bits x 6 1 = 1 then
    match Scope.ofCode (bits x 7 3), WSize.ofCode (bits x 5 1) with
    | some sc, some sz => accept (.lda (bits x 19 5) (bits x 14 5) (bits x 10 4) sc sz (bits x 0 5))
    | _, _ => noCode "LDA"
    else noCode "LDA"
  | 20 => if bits x 6 1 = 1 then
    match Scope.ofCode (bits x 7 3), WSize.ofCode (bits x 5 1) with
    | some sc, some sz => accept (.stl (bits x 19 5) (bits x 14 5) (bits x 10 4) sc sz (bits x 0 5))
    | _, _ => noCode "STL"
    else noCode "STL"
  | 21 => whenZero (bits x 0 1) "AMO" <|
    match AmoFn.ofCode (bits x 5 4), Scope.ofCode (bits x 2 3), WSize.ofCode (bits x 1 1) with
    | some f, some sc, some sz => accept (.amo f (bits x 19 5) (bits x 14 5) (bits x 9 5) sc sz)
    | _, _, _ => noCode "AMO"
  | 22 => whenZero (bits x 0 1 + bits x 5 4) "CAS" <|
    match Scope.ofCode (bits x 2 3), WSize.ofCode (bits x 1 1) with
    | some sc, some sz => accept (.cas (bits x 19 5) (bits x 14 5) (bits x 9 5) sc sz)
    | _, _ => noCode "CAS"
  | 23 => whenZero (bits x 0 3) "FENCE" <|
    match FenceKind.ofCode (bits x 3 2), Scope.ofCode (bits x 5 3) with
    | some k, some sc => accept (.fence k sc (bits x 8 16))
    | _, _ => noCode "FENCE"
  | 24 => whenZero (bits x 19 5) "CMAINT" <|
    match CmOp.ofCode (bits x 4 2), CmLevel.ofCode (bits x 6 3), Guard.ofCode (bits x 0 4) with
    | some op, some lv, some g => accept (.cmaint op lv (bits x 14 5) (bits x 9 5) g)
    | _, _, _ => noCode "CMAINT"
  | 25 => whenZero (bits x 8 1) "WAITA" <|
    match Rel.ofCode (bits x 4 3), WSize.ofCode (bits x 7 1), Guard.ofCode (bits x 0 4) with
    | some r, some sz, some g => accept (.waita r sz (bits x 19 5) (bits x 14 5) (bits x 9 5) g)
    | _, _, _ => noCode "WAITA"
  | 26 =>
    match bits x 4 5 with
    | 0 => whenZero (bits x 9 5) "BAR_ARRIVE" <|
        match Guard.ofCode (bits x 0 4) with
        | some g => accept (.barArrive (bits x 19 5) (bits x 14 5) g)
        | _ => noCode "BAR_ARRIVE"
    | 1 => whenZero (bits x 19 5) "BAR_EXPECT" <|
        match Guard.ofCode (bits x 0 4) with
        | some g => accept (.barExpect (bits x 14 5) (bits x 9 5) g)
        | _ => noCode "BAR_EXPECT"
    | 2 => whenZero (bits x 19 5) "BAR_WAIT" <|
        match Guard.ofCode (bits x 0 4) with
        | some g => accept (.barWait (bits x 14 5) (bits x 9 5) g)
        | _ => noCode "BAR_WAIT"
    | 3 => match Guard.ofCode (bits x 0 4) with
        | some g => accept (.barArriveExpect (bits x 19 5) (bits x 14 5) (bits x 9 5) g)
        | _ => noCode "BAR_ARRIVE_EXPECT"
    | _ => noCode "BAR_ARRIVE"
  | 27 =>
    match bits x 4 5 with
    | 0 => whenZero (bits x 19 5) "FPUT" <|
        match Guard.ofCode (bits x 0 4) with
        | some g => accept (.fput (bits x 14 5) (bits x 9 5) g)
        | _ => noCode "FPUT"
    | 1 => whenZero (bits x 9 5) "FGET" <|
        match Guard.ofCode (bits x 0 4) with
        | some g => accept (.fget (bits x 19 5) (bits x 14 5) g)
        | _ => noCode "FGET"
    | 2 => whenZero (bits x 9 5) "FPEEK" <|
        match Guard.ofCode (bits x 0 4) with
        | some g => accept (.fpeek (bits x 19 5) (bits x 14 5) g)
        | _ => noCode "FPEEK"
    | _ => noCode "FPUT"
  | 32 => accept (.ptg (bits x 21 3) (bits x 0 21))
  | 33 => whenZero (bits x 0 12 + bits x 15 1) "XFER" <|
    accept (.xfer (bits x 21 3) (bits x 20 1) (bits x 19 1) (bits x 17 2) (bits x 16 1) (bits x 12 3))
  | 34 => accept (.trap (bits x 19 5) (bits x 0 19))
  | 35 => whenZero (bits x 0 24) "HALT" <|
    accept (.halt)
  | 36 => whenZero (bits x 0 16) "WAIT" <|
    accept (.wait (bits x 16 8))
  | 37 => whenZero (bits x 0 12) "EVWAIT" <|
    match EvSel.ofCode (bits x 13 11), EvMode.ofCode (bits x 12 1) with
    | some e, some mode => accept (.evwait e mode)
    | _, _ => noCode "EVWAIT"
  | 38 => whenZero (bits x 0 13) "EVSIG" <|
    match EvSel.ofCode (bits x 13 11) with
    | some e => accept (.evsig e)
    | _ => noCode "EVSIG"
  | 39 => whenZero (bits x 0 13) "EVCLR" <|
    match EvSel.ofCode (bits x 13 11) with
    | some e => accept (.evclr e)
    | _ => noCode "EVCLR"
  | 40 => whenZero (bits x 0 8 + bits x 10 4 + bits x 19 5) "QPUSH" <|
    accept (.qpush (bits x 8 2) (bits x 14 5))
  | 41 => whenZero (bits x 0 8 + bits x 10 9) "QPOP" <|
    accept (.qpop (bits x 8 2) (bits x 19 5))
  | 42 => whenZero (bits x 0 14 + bits x 19 5) "FPUSH" <|
    accept (.fpush (bits x 14 5))
  | 43 => whenZero (bits x 0 8 + bits x 10 4 + bits x 19 5) "PSET" <|
    accept (.pset (bits x 8 2) (bits x 14 5))
  | 44 => whenZero (bits x 0 8 + bits x 12 12) "QMARK" <|
    accept (.qmark (bits x 8 4))
  | 45 => whenZero (bits x 0 8 + bits x 9 15) "SQDRAIN" <|
    accept (.sqdrain (bits x 8 1))
  | 48 => whenZero (bits x 6 3) "TALLOC" <|
    match TClass.ofCode (bits x 4 2), Guard.ofCode (bits x 0 4) with
    | some k, some g => accept (.talloc k (bits x 19 5) (bits x 14 5) (bits x 9 5) g)
    | _, _ => noCode "TALLOC"
  | 49 => whenZero (bits x 4 10 + bits x 19 5) "TSEAL" <|
    match Guard.ofCode (bits x 0 4) with
    | some g => accept (.tseal (bits x 14 5) g)
    | _ => noCode "TSEAL"
  | 50 => whenZero (bits x 4 10) "TREAD" <|
    match Guard.ofCode (bits x 0 4) with
    | some g => accept (.tread (bits x 19 5) (bits x 14 5) g)
    | _ => noCode "TREAD"
  | 51 => whenZero (bits x 4 10 + bits x 19 5) "TRET" <|
    match Guard.ofCode (bits x 0 4) with
    | some g => accept (.tret (bits x 14 5) g)
    | _ => noCode "TRET"
  | 52 => whenZero (bits x 4 10 + bits x 19 5) "SPAWN" <|
    match Guard.ofCode (bits x 0 4) with
    | some g => accept (.spawn (bits x 14 5) g)
    | _ => noCode "SPAWN"
  | 53 => whenZero (bits x 4 10) "JOIN" <|
    match Guard.ofCode (bits x 0 4) with
    | some g => accept (.join (bits x 19 5) (bits x 14 5) g)
    | _ => noCode "JOIN"
  | 54 => whenZero (bits x 0 24) "COMMIT" <|
    accept (.commit)
  | 55 => whenZero (bits x 0 24) "YIELD" <|
    accept (.yield)
  | 56 => whenZero (bits x 12 7) "SYSRD" <|
    accept (.sysrd (bits x 19 5) (bits x 0 12))
  | 57 => whenZero (bits x 12 2 + bits x 19 5) "SYSWR" <|
    accept (.syswr (bits x 14 5) (bits x 0 12))
  | 58 => whenZero (bits x 4 10) "PSNAP" <|
    match Guard.ofCode (bits x 0 4) with
    | some g => accept (.psnap (bits x 19 5) (bits x 14 5) g)
    | _ => noCode "PSNAP"
  | 59 => whenZero (bits x 4 10 + bits x 19 5) "PREL" <|
    match Guard.ofCode (bits x 0 4) with
    | some g => accept (.prel (bits x 14 5) g)
    | _ => noCode "PREL"
  | _ => .error (.unallocated 0 op)

/-- Words of the V engine (Table 3.10): bits 29:24 are op, bits 23:0 are x. -/
def decodeV (op x : Nat) : Except DecodeError Instr :=
  match op with
  | 0 => whenZero (bits x 0 24) "VNOP" <|
    accept (.vnop)
  | 1 => whenZero (bits x 2 1) "VADD" <|
    match VDst.ofCode (bits x 18 6), VSrc.ofCode (bits x 12 6), VSrc.ofCode (bits x 6 6), VTy.ofCode (bits x 3 3) with
    | some d, some a, some b, some ty => accept (.vadd d a b ty (bits x 1 1) (bits x 0 1))
    | _, _, _, _ => noCode "VADD"
  | 2 => whenZero (bits x 2 1) "VSUB" <|
    match VDst.ofCode (bits x 18 6), VSrc.ofCode (bits x 12 6), VSrc.ofCode (bits x 6 6), VTy.ofCode (bits x 3 3) with
    | some d, some a, some b, some ty => accept (.vsub d a b ty (bits x 1 1) (bits x 0 1))
    | _, _, _, _ => noCode "VSUB"
  | 3 => whenZero (bits x 2 1) "VMUL" <|
    match VDst.ofCode (bits x 18 6), VSrc.ofCode (bits x 12 6), VSrc.ofCode (bits x 6 6), VTy.ofCode (bits x 3 3) with
    | some d, some a, some b, some ty => accept (.vmul d a b ty (bits x 1 1) (bits x 0 1))
    | _, _, _, _ => noCode "VMUL"
  | 4 => whenZero (bits x 2 1) "VFMA" <|
    match VDst.ofCode (bits x 18 6), VSrc.ofCode (bits x 12 6), VSrc.ofCode (bits x 6 6), VTy.ofCode (bits x 3 3) with
    | some d, some a, some b, some ty => accept (.vfma d a b ty (bits x 1 1) (bits x 0 1))
    | _, _, _, _ => noCode "VFMA"
  | 5 => whenZero (bits x 2 1) "VFNMA" <|
    match VDst.ofCode (bits x 18 6), VSrc.ofCode (bits x 12 6), VSrc.ofCode (bits x 6 6), VTy.ofCode (bits x 3 3) with
    | some d, some a, some b, some ty => accept (.vfnma d a b ty (bits x 1 1) (bits x 0 1))
    | _, _, _, _ => noCode "VFNMA"
  | 6 => whenZero (bits x 1 2) "VMIN" <|
    match VDst.ofCode (bits x 18 6), VSrc.ofCode (bits x 12 6), VSrc.ofCode (bits x 6 6), VTy.ofCode (bits x 3 3) with
    | some d, some a, some b, some ty => accept (.vmin d a b ty (bits x 0 1))
    | _, _, _, _ => noCode "VMIN"
  | 7 => whenZero (bits x 1 2) "VMAX" <|
    match VDst.ofCode (bits x 18 6), VSrc.ofCode (bits x 12 6), VSrc.ofCode (bits x 6 6), VTy.ofCode (bits x 3 3) with
    | some d, some a, some b, some ty => accept (.vmax d a b ty (bits x 0 1))
    | _, _, _, _ => noCode "VMAX"
  | 8 => whenZero (bits x 6 6) "VUN" <|
    match VUnFn.ofCode (bits x 0 3), VDst.ofCode (bits x 18 6), VSrc.ofCode (bits x 12 6), VTy.ofCode (bits x 3 3) with
    | some f, some d, some a, some ty => accept (.vun f d a ty)
    | _, _, _, _ => noCode "VUN"
  | 9 => match VLogFn.ofCode (bits x 0 3), VDst.ofCode (bits x 18 6), VSrc.ofCode (bits x 12 6), VSrc.ofCode (bits x 6 6), VTy.ofCode (bits x 3 3) with
    | some f, some d, some a, some b, some ty => accept (.vlog f d a b ty)
    | _, _, _, _, _ => noCode "VLOG"
  | 10 => match VShFn.ofCode (bits x 0 3), VDst.ofCode (bits x 18 6), VSrc.ofCode (bits x 12 6), VSrc.ofCode (bits x 6 6), VTy.ofCode (bits x 3 3) with
    | some f, some d, some a, some b, some ty => accept (.vsh f d a b ty)
    | _, _, _, _, _ => noCode "VSH"
  | 11 => match VDst.ofCode (bits x 18 6), VSrc.ofCode (bits x 12 6) with
    | some d, some a => accept (.vaddi d a (bits x 0 12))
    | _, _ => noCode "VADDI"
  | 12 => whenZero (bits x 1 2) "VMULW" <|
    match VDst.ofCode (bits x 18 6), VSrc.ofCode (bits x 12 6), VSrc.ofCode (bits x 6 6), VTy.ofCode (bits x 3 3) with
    | some d, some a, some b, some ty => accept (.vmulw d a b ty (bits x 0 1))
    | _, _, _, _ => noCode "VMULW"
  | 13 => whenZero (bits x 2 1) "VADDW" <|
    match VDst.ofCode (bits x 18 6), VSrc.ofCode (bits x 12 6), VSrc.ofCode (bits x 6 6), VTy.ofCode (bits x 3 3) with
    | some d, some a, some b, some ty => accept (.vaddw d a b ty (bits x 1 1) (bits x 0 1))
    | _, _, _, _ => noCode "VADDW"
  | 14 => whenZero (bits x 2 1 + bits x 6 6) "VNARR" <|
    match VDst.ofCode (bits x 18 6), VSrc.ofCode (bits x 12 6), VTy.ofCode (bits x 3 3) with
    | some d, some a, some ty => accept (.vnarr d a ty (bits x 1 1) (bits x 0 1))
    | _, _, _ => noCode "VNARR"
  | 16 => whenZero (bits x 19 5) "VCMP" <|
    match VRel.ofCode (bits x 0 3), VSrc.ofCode (bits x 12 6), VSrc.ofCode (bits x 6 6), VTy.ofCode (bits x 3 3) with
    | some r, some a, some b, some ty => accept (.vcmp r (bits x 18 1) a b ty)
    | _, _, _, _ => noCode "VCMP"
  | 17 => whenZero (bits x 0 24) "VELSE" <|
    accept (.velse)
  | 18 => whenZero (bits x 0 24) "VEND" <|
    accept (.vend)
  | 19 => whenZero (bits x 1 17 + bits x 21 3) "VVOTE" <|
    accept (.vvote (bits x 18 3) (bits x 0 1))
  | 20 => whenZero (bits x 0 3) "VSEL" <|
    match VDst.ofCode (bits x 18 6), VSrc.ofCode (bits x 12 6), VSrc.ofCode (bits x 6 6), VTy.ofCode (bits x 3 3) with
    | some d, some a, some b, some ty => accept (.vsel d a b ty)
    | _, _, _, _ => noCode "VSEL"
  | 21 => whenZero (bits x 21 2) "VBQ" <|
    accept (.vbq (bits x 23 1) (bits x 0 21))
  | 24 => whenZero (bits x 2 1 + bits x 11 1) "VCVT" <|
    match VDst.ofCode (bits x 18 6), VSrc.ofCode (bits x 12 6), Rnd.ofCode (bits x 9 2), VTy.ofCode (bits x 6 3), VTy.ofCode (bits x 3 3) with
    | some d, some a, some mode, some sty, some ty => accept (.vcvt d a mode sty ty (bits x 1 1) (bits x 0 1))
    | _, _, _, _, _ => noCode "VCVT"
  | 25 => whenZero (bits x 0 1 + bits x 2 1) "VQUANT" <|
    match VDst.ofCode (bits x 18 6), VSrc.ofCode (bits x 12 6), VSrc.ofCode (bits x 6 6), VTy.ofCode (bits x 3 3) with
    | some d, some a, some b, some ty => accept (.vquant d a b ty (bits x 1 1))
    | _, _, _, _ => noCode "VQUANT"
  | 26 => whenZero (bits x 0 3) "VDEQ" <|
    match VDst.ofCode (bits x 18 6), VSrc.ofCode (bits x 12 6), VSrc.ofCode (bits x 6 6), VTy.ofCode (bits x 3 3) with
    | some d, some a, some b, some ty => accept (.vdeq d a b ty)
    | _, _, _, _ => noCode "VDEQ"
  | 27 => whenZero (bits x 2 1 + bits x 6 6) "VRINT" <|
    match VDst.ofCode (bits x 18 6), VSrc.ofCode (bits x 12 6), VTy.ofCode (bits x 3 3), Rnd.ofCode (bits x 0 2) with
    | some d, some a, some ty, some mode => accept (.vrint d a ty mode)
    | _, _, _, _ => noCode "VRINT"
  | 28 => if bits x 3 3 = 5 then
    whenZero (bits x 0 3 + bits x 6 6) "VEXP2F" <|
    match VDst.ofCode (bits x 18 6), VSrc.ofCode (bits x 12 6) with
    | some d, some a => accept (.vexp2f d a)
    | _, _ => noCode "VEXP2F"
    else noCode "VEXP2F"
  | 29 => if bits x 3 3 = 5 then
    whenZero (bits x 0 3) "VSCALEB" <|
    match VDst.ofCode (bits x 18 6), VSrc.ofCode (bits x 12 6), VSrc.ofCode (bits x 6 6) with
    | some d, some a, some b => accept (.vscaleb d a b)
    | _, _, _ => noCode "VSCALEB"
    else noCode "VSCALEB"
  | 30 => whenZero (bits x 0 3 + bits x 6 6) "VRCP" <|
    match VDst.ofCode (bits x 18 6), VSrc.ofCode (bits x 12 6), VTy.ofCode (bits x 3 3) with
    | some d, some a, some ty => accept (.vrcp d a ty)
    | _, _, _ => noCode "VRCP"
  | 31 => whenZero (bits x 0 3 + bits x 6 6) "VRSQ" <|
    match VDst.ofCode (bits x 18 6), VSrc.ofCode (bits x 12 6), VTy.ofCode (bits x 3 3) with
    | some d, some a, some ty => accept (.vrsq d a ty)
    | _, _, _ => noCode "VRSQ"
  | 36 => whenZero (bits x 6 6) "VRED" <|
    match VRedFn.ofCode (bits x 0 3), VDst.ofCode (bits x 18 6), VSrc.ofCode (bits x 12 6), VTy.ofCode (bits x 3 3) with
    | some f, some d, some a, some ty => accept (.vred f d a ty)
    | _, _, _, _ => noCode "VRED"
  | 37 => whenZero (bits x 0 3) "VTOPK" <|
    match VDst.ofCode (bits x 18 6), VSrc.ofCode (bits x 12 6), VSrc.ofCode (bits x 6 6), VTy.ofCode (bits x 3 3) with
    | some d, some a, some b, some ty => accept (.vtopk d a b ty)
    | _, _, _, _ => noCode "VTOPK"
  | 38 => whenZero (bits x 0 3) "VPERM" <|
    match VDst.ofCode (bits x 18 6), VSrc.ofCode (bits x 12 6), VSrc.ofCode (bits x 6 6), VTy.ofCode (bits x 3 3) with
    | some d, some a, some b, some ty => accept (.vperm d a b ty)
    | _, _, _, _ => noCode "VPERM"
  | 39 => whenZero (bits x 0 3) "VSHUF" <|
    match VDst.ofCode (bits x 18 6), VSrc.ofCode (bits x 12 6), VSrc.ofCode (bits x 6 6), VTy.ofCode (bits x 3 3) with
    | some d, some a, some b, some ty => accept (.vshuf d a b ty)
    | _, _, _, _ => noCode "VSHUF"
  | 40 => whenZero (bits x 7 3) "VBCAST" <|
    match VDst.ofCode (bits x 18 6), VSrc.ofCode (bits x 12 6), LaneW.ofCode (bits x 10 2) with
    | some d, some a, some w => accept (.vbcast d a w (bits x 0 7))
    | _, _, _ => noCode "VBCAST"
  | 41 => whenZero (bits x 12 6) "VIOTA" <|
    match VDst.ofCode (bits x 18 6) with
    | some d => accept (.viota d (bits x 0 12))
    | _ => noCode "VIOTA"
  | 42 => whenZero (bits x 8 2) "VSLIDE" <|
    match VDst.ofCode (bits x 18 6), VSrc.ofCode (bits x 12 6), LaneW.ofCode (bits x 10 2) with
    | some d, some a, some w => accept (.vslide d a w (bits x 0 8))
    | _, _, _ => noCode "VSLIDE"
  | 48 => whenZero (bits x 2 1) "VTR" <|
    match VDst.ofCode (bits x 18 6), Dir.ofCode (bits x 13 2), cvOfCode (bits x 3 4), Rnd.ofCode (bits x 0 2) with
    | some d, some dir, some cv, some mode => accept (.vtr d (bits x 15 3) dir (bits x 7 6) cv mode)
    | _, _, _, _ => noCode "VTR"
  | 49 => whenZero (bits x 2 1) "VTW" <|
    match VSrc.ofCode (bits x 18 6), Dir.ofCode (bits x 13 2), cvOfCode (bits x 3 4), Rnd.ofCode (bits x 0 2) with
    | some a, some dir, some cv, some mode => accept (.vtw a (bits x 15 3) dir (bits x 7 6) cv mode)
    | _, _, _, _ => noCode "VTW"
  | 52 => whenZero (bits x 0 12 + bits x 19 5) "VQPUSH" <|
    match VSrc.ofCode (bits x 12 6) with
    | some a => accept (.vqpush (bits x 18 1) a)
    | _ => noCode "VQPUSH"
  | 53 => whenZero (bits x 0 24) "VQDRAIN" <|
    accept (.vqdrain)
  | 56 => whenZero (bits x 0 16) "VWAIT" <|
    accept (.vwait (bits x 16 8))
  | 57 => match VAmoFn.ofCode (bits x 0 3), VSrc.ofCode (bits x 18 6), VSrc.ofCode (bits x 12 6), VTy.ofCode (bits x 3 3) with
    | some f, some d, some a, some ty => accept (.vamo f d a (bits x 9 3) (bits x 7 2) (bits x 6 1) ty)
    | _, _, _, _ => noCode "VAMO"
  | 58 => whenZero (bits x 0 3) "VGATH" <|
    match VDst.ofCode (bits x 18 6), VSrc.ofCode (bits x 12 6), VTy.ofCode (bits x 3 3) with
    | some d, some a, some ty => accept (.vgath d a (bits x 9 3) (bits x 7 2) (bits x 6 1) ty)
    | _, _, _ => noCode "VGATH"
  | 59 => whenZero (bits x 0 3) "VSCAT" <|
    match VSrc.ofCode (bits x 18 6), VSrc.ofCode (bits x 12 6), VTy.ofCode (bits x 3 3) with
    | some d, some a, some ty => accept (.vscat d a (bits x 9 3) (bits x 7 2) (bits x 6 1) ty)
    | _, _, _ => noCode "VSCAT"
  | _ => .error (.unallocated 1 op)

/-- Words of the M engine (Table 3.11): bits 29:24 are op, bits 23:0 are x. -/
def decodeM (op x : Nat) : Except DecodeError Instr :=
  match op with
  | 0 => whenZero (bits x 0 24) "MNOP" <|
    accept (.mnop)
  | 1 => whenZero (bits x 5 16) "TCFG" <|
    match TileTy.ofCode (bits x 0 4) with
    | some ty => accept (.tcfg (bits x 21 3) (bits x 4 1) ty)
    | _ => noCode "TCFG"
  | 2 => whenZero (bits x 0 21) "TZERO" <|
    accept (.tzero (bits x 21 3))
  | 3 => whenZero (bits x 7 12) "TLD" <|
    match Dir.ofCode (bits x 19 2) with
    | some dd => accept (.tld (bits x 21 3) dd (bits x 3 4) (bits x 0 3))
    | _ => noCode "TLD"
  | 4 => whenZero (bits x 7 7 + bits x 19 5) "TST" <|
    match Dir.ofCode (bits x 14 2) with
    | some da => accept (.tst (bits x 16 3) da (bits x 3 4) (bits x 0 3))
    | _ => noCode "TST"
  | 5 => whenZero (bits x 0 14) "TMOV" <|
    match Dir.ofCode (bits x 19 2), Dir.ofCode (bits x 14 2) with
    | some dd, some da => accept (.tmov (bits x 21 3) dd (bits x 16 3) da)
    | _, _ => noCode "TMOV"
  | 6 => whenZero (bits x 0 14) "TSCAL" <|
    match Dir.ofCode (bits x 19 2), Dir.ofCode (bits x 14 2) with
    | some dd, some da => accept (.tscal (bits x 21 3) dd (bits x 16 3) da)
    | _, _ => noCode "TSCAL"
  | 7 => whenZero (bits x 0 9) "TADD" <|
    match Dir.ofCode (bits x 19 2), Dir.ofCode (bits x 14 2), Dir.ofCode (bits x 9 2) with
    | some dd, some da, some db => accept (.tadd (bits x 21 3) dd (bits x 16 3) da (bits x 11 3) db)
    | _, _, _ => noCode "TADD"
  | 8 => whenZero (bits x 0 24) "MLEASE" <|
    accept (.mlease)
  | 9 => whenZero (bits x 0 24) "MFREE" <|
    accept (.mfree)
  | 10 => whenZero (bits x 0 24) "MMARK" <|
    accept (.mmark)
  | 11 => accept (.mset (bits x 22 2) (bits x 16 6) (bits x 0 16))
  | 12 => whenZero (bits x 0 16) "MSETQ" <|
    accept (.msetq (bits x 22 2) (bits x 16 6))
  | 13 => whenZero (bits x 0 20 + bits x 21 1) "MISSUE" <|
    accept (.missue (bits x 22 2) (bits x 20 1))
  | 14 => whenZero (bits x 0 16) "MWAIT" <|
    accept (.mwait (bits x 16 8))
  | 15 => whenZero (bits x 21 2) "MBQ" <|
    accept (.mbq (bits x 23 1) (bits x 0 21))
  | 16 => whenZero (bits x 0 24) "MQDRAIN" <|
    accept (.mqdrain)
  | 17 => whenZero (bits x 16 4) "MBOND" <|
    accept (.mbond (bits x 20 4) (bits x 0 16))
  | 18 => whenZero (bits x 0 24) "MORDER" <|
    accept (.morder)
  | 24 => whenZero (bits x 0 24) "KLOAD" <|
    accept (.kload)
  | 25 => whenZero (bits x 2 22) "KPERM" <|
    accept (.kperm (bits x 1 1) (bits x 0 1))
  | _ => .error (.unallocated 2 op)

/-- Words of the C engine (Table 3.12): bits 29:24 are op, bits 23:0 are x. -/
def decodeC (op x : Nat) : Except DecodeError Instr :=
  match op with
  | 0 => whenZero (bits x 0 24) "CNOP" <|
    accept (.cnop)
  | 1 => accept (.cset (bits x 22 2) (bits x 16 6) (bits x 0 16))
  | 2 => whenZero (bits x 0 16) "CSETQ" <|
    accept (.csetq (bits x 22 2) (bits x 16 6))
  | 3 => whenZero (bits x 0 20 + bits x 21 1) "CISSUE" <|
    accept (.cissue (bits x 22 2) (bits x 20 1))
  | 4 => whenZero (bits x 0 18 + bits x 22 2) "CCODE" <|
    accept (.ccode (bits x 18 4))
  | 5 => whenZero (bits x 0 16) "CWAIT" <|
    accept (.cwait (bits x 16 8))
  | 6 => whenZero (bits x 21 2) "CBQ" <|
    accept (.cbq (bits x 23 1) (bits x 0 21))
  | 7 => whenZero (bits x 0 24) "CQDRAIN" <|
    accept (.cqdrain)
  | 8 => whenZero (bits x 0 15) "CMLIST" <|
    accept (.cmlist (bits x 18 6) (bits x 15 3))
  | _ => .error (.unallocated 3 op)

/-- Decode one 32-bit word (R50): tag in bits 31:30, OP in bits 29:24. -/
def decodeWord (w : Nat) : Except DecodeError Instr :=
  match bits w 30 2 with
  | 0 => decodeS (bits w 24 6) (bits w 0 24)
  | 1 => decodeV (bits w 24 6) (bits w 0 24)
  | 2 => decodeM (bits w 24 6) (bits w 0 24)
  | _ => decodeC (bits w 24 6) (bits w 0 24)

/-- Four bytes in memory order as a word, little-endian (R3, R50). -/
def wordOfBytes (b0 b1 b2 b3 : Nat) : Nat :=
  b0 % 256 + 256 * (b1 % 256) + 65536 * (b2 % 256) + 16777216 * (b3 % 256)

/-- Decode the word at the head of a byte list and give the rest. -/
def decodeBytes : List Nat → Except DecodeError (Instr × List Nat)
  | b0 :: b1 :: b2 :: b3 :: rest =>
    match decodeWord (wordOfBytes b0 b1 b2 b3) with
    | .ok i => .ok (i, rest)
    | .error e => .error e
  | _ => .error .short

/-- The word of bits w, as the host's tables number them: one 32-bit word whose bit 0 is least significant.
Bits above nbits are zero, and a word longer than 32 bits does not exist. -/
def decodeTableWord (nbits w : Nat) : Option Instr :=
  let x := w % 2 ^ nbits % 2 ^ 32
  match decodeBytes [x % 256, x / 256 % 256, x / 65536 % 256, x / 16777216 % 256] with
  | .ok (i, _) => some i
  | .error _ => none

/-- Engine whose tag a word instruction carries; none for commands and events, which have no word. -/
def Instr.engine : Instr → Option Eng
  | .nop => some .s
  | .alu _ _ _ _ _ => some .s
  | .muldiv _ _ _ _ _ => some .s
  | .addi _ _ _ => some .s
  | .andi _ _ _ => some .s
  | .ori _ _ _ => some .s
  | .xori _ _ _ => some .s
  | .shli _ _ _ => some .s
  | .shri _ _ _ => some .s
  | .srai _ _ _ => some .s
  | .lui _ _ => some .s
  | .luh _ _ => some .s
  | .cmp _ _ _ _ _ => some .s
  | .cmpi _ _ _ _ => some .s
  | .lea _ _ _ _ _ => some .s
  | .ctos _ _ => some .s
  | .stoc _ _ => some .s
  | .ld _ _ _ _ _ => some .s
  | .lds _ _ _ _ _ => some .s
  | .st _ _ _ _ _ => some .s
  | .lda _ _ _ _ _ _ => some .s
  | .stl _ _ _ _ _ _ => some .s
  | .amo _ _ _ _ _ _ => some .s
  | .cas _ _ _ _ _ => some .s
  | .fence _ _ _ => some .s
  | .cmaint _ _ _ _ _ => some .s
  | .waita _ _ _ _ _ _ => some .s
  | .barArrive _ _ _ => some .s
  | .barExpect _ _ _ => some .s
  | .barWait _ _ _ => some .s
  | .barArriveExpect _ _ _ _ => some .s
  | .fput _ _ _ => some .s
  | .fget _ _ _ => some .s
  | .fpeek _ _ _ => some .s
  | .ptg _ _ => some .s
  | .xfer _ _ _ _ _ _ => some .s
  | .trap _ _ => some .s
  | .halt => some .s
  | .wait _ => some .s
  | .evwait _ _ => some .s
  | .evsig _ => some .s
  | .evclr _ => some .s
  | .qpush _ _ => some .s
  | .qpop _ _ => some .s
  | .fpush _ => some .s
  | .pset _ _ => some .s
  | .qmark _ => some .s
  | .sqdrain _ => some .s
  | .talloc _ _ _ _ _ => some .s
  | .tseal _ _ => some .s
  | .tread _ _ _ => some .s
  | .tret _ _ => some .s
  | .spawn _ _ => some .s
  | .join _ _ _ => some .s
  | .commit => some .s
  | .yield => some .s
  | .sysrd _ _ => some .s
  | .syswr _ _ => some .s
  | .psnap _ _ _ => some .s
  | .prel _ _ => some .s
  | .vnop => some .v
  | .vadd _ _ _ _ _ _ => some .v
  | .vsub _ _ _ _ _ _ => some .v
  | .vmul _ _ _ _ _ _ => some .v
  | .vfma _ _ _ _ _ _ => some .v
  | .vfnma _ _ _ _ _ _ => some .v
  | .vmin _ _ _ _ _ => some .v
  | .vmax _ _ _ _ _ => some .v
  | .vun _ _ _ _ => some .v
  | .vlog _ _ _ _ _ => some .v
  | .vsh _ _ _ _ _ => some .v
  | .vaddi _ _ _ => some .v
  | .vmulw _ _ _ _ _ => some .v
  | .vaddw _ _ _ _ _ _ => some .v
  | .vnarr _ _ _ _ _ => some .v
  | .vcmp _ _ _ _ _ => some .v
  | .velse => some .v
  | .vend => some .v
  | .vvote _ _ => some .v
  | .vsel _ _ _ _ => some .v
  | .vbq _ _ => some .v
  | .vcvt _ _ _ _ _ _ _ => some .v
  | .vquant _ _ _ _ _ => some .v
  | .vdeq _ _ _ _ => some .v
  | .vrint _ _ _ _ => some .v
  | .vexp2f _ _ => some .v
  | .vscaleb _ _ _ => some .v
  | .vrcp _ _ _ => some .v
  | .vrsq _ _ _ => some .v
  | .vred _ _ _ _ => some .v
  | .vtopk _ _ _ _ => some .v
  | .vperm _ _ _ _ => some .v
  | .vshuf _ _ _ _ => some .v
  | .vbcast _ _ _ _ => some .v
  | .viota _ _ => some .v
  | .vslide _ _ _ _ => some .v
  | .vtr _ _ _ _ _ _ => some .v
  | .vtw _ _ _ _ _ _ => some .v
  | .vqpush _ _ => some .v
  | .vqdrain => some .v
  | .vwait _ => some .v
  | .vamo _ _ _ _ _ _ _ => some .v
  | .vgath _ _ _ _ _ _ => some .v
  | .vscat _ _ _ _ _ _ => some .v
  | .mnop => some .m
  | .tcfg _ _ _ => some .m
  | .tzero _ => some .m
  | .tld _ _ _ _ => some .m
  | .tst _ _ _ _ => some .m
  | .tmov _ _ _ _ => some .m
  | .tscal _ _ _ _ => some .m
  | .tadd _ _ _ _ _ _ => some .m
  | .mlease => some .m
  | .mfree => some .m
  | .mmark => some .m
  | .mset _ _ _ => some .m
  | .msetq _ _ => some .m
  | .missue _ _ => some .m
  | .mwait _ => some .m
  | .mbq _ _ => some .m
  | .mqdrain => some .m
  | .mbond _ _ => some .m
  | .morder => some .m
  | .kload => some .m
  | .kperm _ _ => some .m
  | .cnop => some .c
  | .cset _ _ _ => some .c
  | .csetq _ _ => some .c
  | .cissue _ _ => some .c
  | .ccode _ => some .c
  | .cwait _ => some .c
  | .cbq _ _ => some .c
  | .cqdrain => some .c
  | .cmlist _ _ => some .c
  | .waitaTimeout _ => none
  | .keystoneRewrite _ => none
  | .cmlistListWrite _ _ => none
  | .memoryReturn _ _ => none
  | .copy _ _ => none
  | .copyz _ _ => none
  | .gathl _ _ => none
  | .scatl _ _ => none
  | .motion _ _ => none
  | .pgath _ _ => none
  | .fill _ _ => none
  | .wstore _ _ => none
  | .commandCompletion _ => none
  | .gemm _ => none
  | .conv _ => none
  | .chain _ => none
  | .accrd _ => none
  | .accz _ => none
  | .wload _ => none
  | .girderMigration _ _ _ => none
  | .leaseGrant _ => none
  | .leaseLapseCycles _ => none
  | .watchdog _ => none
  | .postcommitLong _ => none
  | .commitStep _ => none
  | .haltBundleRetire _ => none
  | .launchMailbox _ _ => none
  | .dispatch => none
  | .quotaEvaluation => none
  | .spillRefill => none
  | .bootMailbox _ _ _ => none
  | .strandStart _ => none
  | .imageRegister _ _ _ => none
  | .bitstreamWrite _ _ => none
  | .frameDelivery _ _ => none
  | .decodeError _ => none
  | .layerDecision _ _ => none
  | .cmuDeferredWrite _ _ _ => none
  | .slipwWrite _ _ => none
  | .keyCtlWrite _ _ => none
  | .parapetFire _ => none
  | .parapetArm _ => none
  | .parapetDisarm _ => none
  | .parapetClr => none
  | .parapetDesignate _ => none
  | .parapetPreempt _ => none
  | .haltRequest _ _ => none
  | .partnerTimeout => none
  | .parapetDeadline => none
  | .outputSense _ => none
  | .errCorrClr _ => none
  | .debugStop _ => none
  | .debugResume _ => none
  | .contextConfigure _ _ => none
  | .pipelineInstanceCreate _ _ => none
  | .pipelineInstanceDestroy _ => none
  | .carveSet _ _ => none
  | .publishedBufferCreate _ _ _ => none
  | .apertureCreate _ _ _ => none
  | .streamCreate _ _ _ => none
  | .xidRecordWrite _ _ => none
  | .contextUnfence _ => none
  | .returnToService _ => none
  | .predictiveFailure _ => none
  | .invalPage _ _ => none
  | .invalXid _ => none
  | .invalAll => none
  | .invalidationDone => none
  | .pageWalk _ _ => none
  | .pageMigration _ _ _ _ => none
  | .dirtyLineDrain _ _ _ => none
  | .wstRefreshSlot _ => none
  | .inboundWrite _ _ _ => none
  | .inboundRead _ _ _ _ => none
  | .inboundAtomic _ _ _ _ => none
  | .atsInvalidation _ _ _ _ => none
  | .msixUnmask _ => none
  | .ideKeyProgram _ _ => none
  | .getVersion => none
  | .getCapabilities => none
  | .negotiateAlgorithms _ _ => none
  | .getDigests => none
  | .getCertificate _ _ _ => none
  | .setCertificate _ _ => none
  | .challenge _ _ => none
  | .getMeasurements _ _ => none
  | .keyExchange _ _ => none
  | .finish _ => none
  | .endSession => none
  | .linkTraining _ _ _ => none
  | .vfFlr _ => none
  | .pfFlr => none
  | .powerGood _ => none
  | .powerLoss => none
  | .powerLimit _ => none
  | .thermalLimit _ => none
  | .coreGate _ => none
  | .clusterGate _ => none
  | .hbmSelfRefresh _ => none
  | .powerWake _ => none
  | .storePerformed _ _ => none
  | .managementPathWrite _ _ _ => none
  | .pageRetire _ => none
  | .streamReclaim _ => none
  | .flashRewrite _ => none
  | .pinnedServiceWithdrawal _ _ => none

/-- Encoder: the word of a well-formed instruction (Tables 3.1 to 3.12); 0 for commands and events. -/
def encode : Instr → Nat
  | .nop => 0x00000000
  | .alu f d a b g => 0x01000000 + f.code * 16 + d * 524288 + a * 16384 + b * 512 + g.code
  | .muldiv f d a b g => 0x02000000 + f.code * 16 + d * 524288 + a * 16384 + b * 512 + g.code
  | .addi d a imm => 0x03000000 + d * 524288 + a * 16384 + imm
  | .andi d a imm => 0x04000000 + d * 524288 + a * 16384 + imm
  | .ori d a imm => 0x05000000 + d * 524288 + a * 16384 + imm
  | .xori d a imm => 0x06000000 + d * 524288 + a * 16384 + imm
  | .shli d a cnt => 0x07000000 + d * 524288 + a * 16384 + cnt
  | .shri d a cnt => 0x08000000 + d * 524288 + a * 16384 + cnt
  | .srai d a cnt => 0x09000000 + d * 524288 + a * 16384 + cnt
  | .lui d imm => 0x0A000000 + d * 524288 + imm
  | .luh d imm => 0x0B000000 + d * 524288 + imm
  | .cmp r c a b g => 0x0C000000 + r.code * 16 + c * 524288 + a * 16384 + b * 512 + g.code
  | .cmpi r c a imm => 0x0D000000 + r.code * 2097152 + c * 524288 + a * 16384 + imm
  | .lea d a b sh g => 0x0E000000 + d * 524288 + a * 16384 + b * 512 + sh * 16 + g.code
  | .ctos d g => 0x0F000000 + d * 524288 + g.code
  | .stoc a g => 0x0F000010 + a * 16384 + g.code
  | .ld d a oc sz off => 0x10000000 + d * 524288 + a * 16384 + oc * 1024 + sz.code * 256 + off
  | .lds d a oc sz off => 0x11000000 + d * 524288 + a * 16384 + oc * 1024 + sz.code * 256 + off
  | .st d a oc sz off => 0x12000000 + d * 524288 + a * 16384 + oc * 1024 + sz.code * 256 + off
  | .lda d a oc sc sz off => 0x13000040 + d * 524288 + a * 16384 + oc * 1024 + sc.code * 128 + sz.code * 32 + off
  | .stl d a oc sc sz off => 0x14000040 + d * 524288 + a * 16384 + oc * 1024 + sc.code * 128 + sz.code * 32 + off
  | .amo f d a b sc sz => 0x15000000 + f.code * 32 + d * 524288 + a * 16384 + b * 512 + sc.code * 4 + sz.code * 2
  | .cas d a b sc sz => 0x16000000 + d * 524288 + a * 16384 + b * 512 + sc.code * 4 + sz.code * 2
  | .fence k sc cm => 0x17000000 + k.code * 8 + sc.code * 32 + cm * 256
  | .cmaint op lv a b g => 0x18000000 + op.code * 16 + lv.code * 64 + a * 16384 + b * 512 + g.code
  | .waita r sz d a b g => 0x19000000 + r.code * 16 + sz.code * 128 + d * 524288 + a * 16384 + b * 512 + g.code
  | .barArrive d a g => 0x1A000000 + d * 524288 + a * 16384 + g.code
  | .barExpect a b g => 0x1A000010 + a * 16384 + b * 512 + g.code
  | .barWait a b g => 0x1A000020 + a * 16384 + b * 512 + g.code
  | .barArriveExpect d a b g => 0x1A000030 + d * 524288 + a * 16384 + b * 512 + g.code
  | .fput a b g => 0x1B000000 + a * 16384 + b * 512 + g.code
  | .fget d a g => 0x1B000010 + d * 524288 + a * 16384 + g.code
  | .fpeek d a g => 0x1B000020 + d * 524288 + a * 16384 + g.code
  | .ptg bt imm => 0x20000000 + bt * 2097152 + imm
  | .xfer bt l u ci cs bm => 0x21000000 + bt * 2097152 + l * 1048576 + u * 524288 + ci * 131072 + cs * 65536 + bm * 4096
  | .trap d code => 0x22000000 + d * 524288 + code
  | .halt => 0x23000000
  | .wait m => 0x24000000 + m * 65536
  | .evwait e mode => 0x25000000 + e.code * 8192 + mode.code * 4096
  | .evsig e => 0x26000000 + e.code * 8192
  | .evclr e => 0x27000000 + e.code * 8192
  | .qpush sel a => 0x28000000 + sel * 256 + a * 16384
  | .qpop sel d => 0x29000000 + sel * 256 + d * 524288
  | .fpush a => 0x2A000000 + a * 16384
  | .pset p a => 0x2B000000 + p * 256 + a * 16384
  | .qmark m => 0x2C000000 + m * 256
  | .sqdrain sel => 0x2D000000 + sel * 256
  | .talloc k d a b g => 0x30000000 + k.code * 16 + d * 524288 + a * 16384 + b * 512 + g.code
  | .tseal a g => 0x31000000 + a * 16384 + g.code
  | .tread d a g => 0x32000000 + d * 524288 + a * 16384 + g.code
  | .tret a g => 0x33000000 + a * 16384 + g.code
  | .spawn a g => 0x34000000 + a * 16384 + g.code
  | .join d a g => 0x35000000 + d * 524288 + a * 16384 + g.code
  | .commit => 0x36000000
  | .yield => 0x37000000
  | .sysrd d idx => 0x38000000 + d * 524288 + idx
  | .syswr a idx => 0x39000000 + a * 16384 + idx
  | .psnap d a g => 0x3A000000 + d * 524288 + a * 16384 + g.code
  | .prel a g => 0x3B000000 + a * 16384 + g.code
  | .vnop => 0x40000000
  | .vadd d a b ty s u => 0x41000000 + d.code * 262144 + a.code * 4096 + b.code * 64 + ty.code * 8 + s * 2 + u
  | .vsub d a b ty s u => 0x42000000 + d.code * 262144 + a.code * 4096 + b.code * 64 + ty.code * 8 + s * 2 + u
  | .vmul d a b ty s u => 0x43000000 + d.code * 262144 + a.code * 4096 + b.code * 64 + ty.code * 8 + s * 2 + u
  | .vfma d a b ty s u => 0x44000000 + d.code * 262144 + a.code * 4096 + b.code * 64 + ty.code * 8 + s * 2 + u
  | .vfnma d a b ty s u => 0x45000000 + d.code * 262144 + a.code * 4096 + b.code * 64 + ty.code * 8 + s * 2 + u
  | .vmin d a b ty u => 0x46000000 + d.code * 262144 + a.code * 4096 + b.code * 64 + ty.code * 8 + u
  | .vmax d a b ty u => 0x47000000 + d.code * 262144 + a.code * 4096 + b.code * 64 + ty.code * 8 + u
  | .vun f d a ty => 0x48000000 + f.code + d.code * 262144 + a.code * 4096 + ty.code * 8
  | .vlog f d a b ty => 0x49000000 + f.code + d.code * 262144 + a.code * 4096 + b.code * 64 + ty.code * 8
  | .vsh f d a b ty => 0x4A000000 + f.code + d.code * 262144 + a.code * 4096 + b.code * 64 + ty.code * 8
  | .vaddi d a imm => 0x4B000000 + d.code * 262144 + a.code * 4096 + imm
  | .vmulw d a b ty u => 0x4C000000 + d.code * 262144 + a.code * 4096 + b.code * 64 + ty.code * 8 + u
  | .vaddw d a b ty s u => 0x4D000000 + d.code * 262144 + a.code * 4096 + b.code * 64 + ty.code * 8 + s * 2 + u
  | .vnarr d a ty s u => 0x4E000000 + d.code * 262144 + a.code * 4096 + ty.code * 8 + s * 2 + u
  | .vcmp r u a b ty => 0x50000000 + r.code + u * 262144 + a.code * 4096 + b.code * 64 + ty.code * 8
  | .velse => 0x51000000
  | .vend => 0x52000000
  | .vvote q all => 0x53000000 + q * 262144 + all
  | .vsel d a b ty => 0x54000000 + d.code * 262144 + a.code * 4096 + b.code * 64 + ty.code * 8
  | .vbq s imm => 0x55000000 + s * 8388608 + imm
  | .vcvt d a mode sty ty s u => 0x58000000 + d.code * 262144 + a.code * 4096 + mode.code * 512 + sty.code * 64 + ty.code * 8 + s * 2 + u
  | .vquant d a b ty s => 0x59000000 + d.code * 262144 + a.code * 4096 + b.code * 64 + ty.code * 8 + s * 2
  | .vdeq d a b ty => 0x5A000000 + d.code * 262144 + a.code * 4096 + b.code * 64 + ty.code * 8
  | .vrint d a ty mode => 0x5B000000 + d.code * 262144 + a.code * 4096 + ty.code * 8 + mode.code
  | .vexp2f d a => 0x5C000028 + d.code * 262144 + a.code * 4096
  | .vscaleb d a b => 0x5D000028 + d.code * 262144 + a.code * 4096 + b.code * 64
  | .vrcp d a ty => 0x5E000000 + d.code * 262144 + a.code * 4096 + ty.code * 8
  | .vrsq d a ty => 0x5F000000 + d.code * 262144 + a.code * 4096 + ty.code * 8
  | .vred f d a ty => 0x64000000 + f.code + d.code * 262144 + a.code * 4096 + ty.code * 8
  | .vtopk d a b ty => 0x65000000 + d.code * 262144 + a.code * 4096 + b.code * 64 + ty.code * 8
  | .vperm d a b ty => 0x66000000 + d.code * 262144 + a.code * 4096 + b.code * 64 + ty.code * 8
  | .vshuf d a b ty => 0x67000000 + d.code * 262144 + a.code * 4096 + b.code * 64 + ty.code * 8
  | .vbcast d a w idx => 0x68000000 + d.code * 262144 + a.code * 4096 + w.code * 1024 + idx
  | .viota d imm => 0x69000000 + d.code * 262144 + imm
  | .vslide d a w n => 0x6A000000 + d.code * 262144 + a.code * 4096 + w.code * 1024 + n
  | .vtr d t dir idx cv mode => 0x70000000 + d.code * 262144 + t * 32768 + dir.code * 8192 + idx * 128 + cvCode cv * 8 + mode.code
  | .vtw a t dir idx cv mode => 0x71000000 + a.code * 262144 + t * 32768 + dir.code * 8192 + idx * 128 + cvCode cv * 8 + mode.code
  | .vqpush q a => 0x74000000 + q * 262144 + a.code * 4096
  | .vqdrain => 0x75000000
  | .vwait m => 0x78000000 + m * 65536
  | .vamo f d a w sc sg ty => 0x79000000 + f.code + d.code * 262144 + a.code * 4096 + w * 512 + sc * 128 + sg * 64 + ty.code * 8
  | .vgath d a w sc sg ty => 0x7A000000 + d.code * 262144 + a.code * 4096 + w * 512 + sc * 128 + sg * 64 + ty.code * 8
  | .vscat d a w sc sg ty => 0x7B000000 + d.code * 262144 + a.code * 4096 + w * 512 + sc * 128 + sg * 64 + ty.code * 8
  | .mnop => 0x80000000
  | .tcfg d keep ty => 0x81000000 + d * 2097152 + keep * 16 + ty.code
  | .tzero d => 0x82000000 + d * 2097152
  | .tld d dd oc w => 0x83000000 + d * 2097152 + dd.code * 524288 + oc * 8 + w
  | .tst a da oc w => 0x84000000 + a * 65536 + da.code * 16384 + oc * 8 + w
  | .tmov d dd a da => 0x85000000 + d * 2097152 + dd.code * 524288 + a * 65536 + da.code * 16384
  | .tscal d dd a da => 0x86000000 + d * 2097152 + dd.code * 524288 + a * 65536 + da.code * 16384
  | .tadd d dd a da b db => 0x87000000 + d * 2097152 + dd.code * 524288 + a * 65536 + da.code * 16384 + b * 2048 + db.code * 512
  | .mlease => 0x88000000
  | .mfree => 0x89000000
  | .mmark => 0x8A000000
  | .mset k f imm => 0x8B000000 + k * 4194304 + f * 65536 + imm
  | .msetq k f => 0x8C000000 + k * 4194304 + f * 65536
  | .missue k q => 0x8D000000 + k * 4194304 + q * 1048576
  | .mwait m => 0x8E000000 + m * 65536
  | .mbq s imm => 0x8F000000 + s * 8388608 + imm
  | .mqdrain => 0x90000000
  | .mbond n imm => 0x91000000 + n * 1048576 + imm
  | .morder => 0x92000000
  | .kload => 0x98000000
  | .kperm f r => 0x99000000 + f * 2 + r
  | .cnop => 0xC0000000
  | .cset k f imm => 0xC1000000 + k * 4194304 + f * 65536 + imm
  | .csetq k f => 0xC2000000 + k * 4194304 + f * 65536
  | .cissue k q => 0xC3000000 + k * 4194304 + q * 1048576
  | .ccode i => 0xC4000000 + i * 262144
  | .cwait m => 0xC5000000 + m * 65536
  | .cbq s imm => 0xC6000000 + s * 8388608 + imm
  | .cqdrain => 0xC7000000
  | .cmlist l w => 0xC8000000 + l * 262144 + w * 32768
  | .waitaTimeout _ => 0
  | .keystoneRewrite _ => 0
  | .cmlistListWrite _ _ => 0
  | .memoryReturn _ _ => 0
  | .copy _ _ => 0
  | .copyz _ _ => 0
  | .gathl _ _ => 0
  | .scatl _ _ => 0
  | .motion _ _ => 0
  | .pgath _ _ => 0
  | .fill _ _ => 0
  | .wstore _ _ => 0
  | .commandCompletion _ => 0
  | .gemm _ => 0
  | .conv _ => 0
  | .chain _ => 0
  | .accrd _ => 0
  | .accz _ => 0
  | .wload _ => 0
  | .girderMigration _ _ _ => 0
  | .leaseGrant _ => 0
  | .leaseLapseCycles _ => 0
  | .watchdog _ => 0
  | .postcommitLong _ => 0
  | .commitStep _ => 0
  | .haltBundleRetire _ => 0
  | .launchMailbox _ _ => 0
  | .dispatch => 0
  | .quotaEvaluation => 0
  | .spillRefill => 0
  | .bootMailbox _ _ _ => 0
  | .strandStart _ => 0
  | .imageRegister _ _ _ => 0
  | .bitstreamWrite _ _ => 0
  | .frameDelivery _ _ => 0
  | .decodeError _ => 0
  | .layerDecision _ _ => 0
  | .cmuDeferredWrite _ _ _ => 0
  | .slipwWrite _ _ => 0
  | .keyCtlWrite _ _ => 0
  | .parapetFire _ => 0
  | .parapetArm _ => 0
  | .parapetDisarm _ => 0
  | .parapetClr => 0
  | .parapetDesignate _ => 0
  | .parapetPreempt _ => 0
  | .haltRequest _ _ => 0
  | .partnerTimeout => 0
  | .parapetDeadline => 0
  | .outputSense _ => 0
  | .errCorrClr _ => 0
  | .debugStop _ => 0
  | .debugResume _ => 0
  | .contextConfigure _ _ => 0
  | .pipelineInstanceCreate _ _ => 0
  | .pipelineInstanceDestroy _ => 0
  | .carveSet _ _ => 0
  | .publishedBufferCreate _ _ _ => 0
  | .apertureCreate _ _ _ => 0
  | .streamCreate _ _ _ => 0
  | .xidRecordWrite _ _ => 0
  | .contextUnfence _ => 0
  | .returnToService _ => 0
  | .predictiveFailure _ => 0
  | .invalPage _ _ => 0
  | .invalXid _ => 0
  | .invalAll => 0
  | .invalidationDone => 0
  | .pageWalk _ _ => 0
  | .pageMigration _ _ _ _ => 0
  | .dirtyLineDrain _ _ _ => 0
  | .wstRefreshSlot _ => 0
  | .inboundWrite _ _ _ => 0
  | .inboundRead _ _ _ _ => 0
  | .inboundAtomic _ _ _ _ => 0
  | .atsInvalidation _ _ _ _ => 0
  | .msixUnmask _ => 0
  | .ideKeyProgram _ _ => 0
  | .getVersion => 0
  | .getCapabilities => 0
  | .negotiateAlgorithms _ _ => 0
  | .getDigests => 0
  | .getCertificate _ _ _ => 0
  | .setCertificate _ _ => 0
  | .challenge _ _ => 0
  | .getMeasurements _ _ => 0
  | .keyExchange _ _ => 0
  | .finish _ => 0
  | .endSession => 0
  | .linkTraining _ _ _ => 0
  | .vfFlr _ => 0
  | .pfFlr => 0
  | .powerGood _ => 0
  | .powerLoss => 0
  | .powerLimit _ => 0
  | .thermalLimit _ => 0
  | .coreGate _ => 0
  | .clusterGate _ => 0
  | .hbmSelfRefresh _ => 0
  | .powerWake _ => 0
  | .storePerformed _ _ => 0
  | .managementPathWrite _ _ _ => 0
  | .pageRetire _ => 0
  | .streamReclaim _ => 0
  | .flashRewrite _ => 0
  | .pinnedServiceWithdrawal _ _ => 0

end Sys2Proof
end

