-- ==== Sys2Proof/Config.lean ====
section
/-! DEFINITION. What an implementation fixes, and the free values of the model: opaque constants without a
body, so that no proof can see a value of theirs. Each is named in the assumption log. -/

namespace Sys2Proof

/-- Where a bit error can strike (spec/18_faults_and_containment.md, Tables 18.3 and 18.5). -/
inductive UpsetPlace where
  /-- In the registers, tokens, events, queues and ports, core names the ordinary context of a core, and core + 128 its
  Parapet context. A scalar, condition, branch-target or bond register of a core. -/
  | scalar (core n : Nat)
  /-- A vector register of a core. -/
  | vector (core n : Nat)
  /-- A tile register of a core. -/
  | tile (core n : Nat)
  /-- A command register of a core. -/
  | command (core n : Nat)
  /-- A token's count, and the events, of a core (Table 5.1). -/
  | token (core n : Nat)
  | event (core : Nat)
  /-- The front entry of a queue of a core: 0 to 5 the data queues, 6 fq, 7 to 10 the outcome queues. -/
  | queue (core q : Nat)
  /-- The configuration in use of a port of a core. -/
  | port (core n : Nat)
  /-- The word of a core's instruction memory at a text offset of its strand's image. -/
  | imem (core off : Nat)
  /-- A slot of the rule store of a core. -/
  | rules (core slot : Nat)
  /-- The 64-bit word at an offset of a scratchpad. -/
  | spad (core off : Nat)
  /-- The line of a core's L1 with a key. -/
  | l1 (core key : Nat)
  /-- The line of a cluster's slice with a key. -/
  | slice (cluster key : Nat)
  /-- The 128-byte line of device memory at a physical address. -/
  | home (pa : Nat)
  /-- The 64-bit word at an offset of a die's weight store. -/
  | wst (die off : Nat)
  /-- A bank (0 to 3) or stationary buffer (4, 5) of a cluster's Girder. -/
  | girder (cluster unit : Nat)
  /-- A mesh flit that carries the line at a physical address; uncorr marks one whose 16 retries all failed. -/
  | mesh (pa : Nat)
  /-- A PCIe flit, which its link repairs. -/
  | pcie
  /-- The places of Table 18.6, whose errors nothing detects (R388): the multiply-accumulate array of a Girder, the vector
  lanes of a core, the decompressors and the format converter of its copy engines, the codec engines and the change-mask
  comparators of a stream, and load data on its way to a core's Trestle. -/
  | macs (cluster : Nat)
  | lanes (core : Nat)
  | copies (core : Nat)
  | codec (stream : Nat)
  | changes (stream : Nat)
  | loads (core : Nat)
  deriving DecidableEq, Repr, Inhabited

/-- A bit error waiting to be consumed; uncorr marks one that SEC-DED cannot correct (R387). -/
structure Upset where
  place : UpsetPlace
  uncorr : Bool
  deriving DecidableEq, Repr, Inhabited

/-- What the management path reads of a stopped strand (R117). -/
inductive DebugItem where
  | s (n : Nat)
  | c
  | b (n : Nat)
  | v (n : Nat)
  | t (n : Nat)
  /-- Command registers of M (0 to 3) and C (4 to 7), and bonds. -/
  | k (n : Nat)
  | bd (n : Nat)
  | w (n : Nat)
  | e
  | pc (e : Eng)
  /-- Entry j, from the front, of a data queue, of fq, of an outcome queue; a level of the predicate stack. -/
  | q (i j : Nat)
  | fq (j : Nat)
  | oq (e : Eng) (j : Nat)
  | pred (j : Nat)
  /-- Setting i of configuration j, from the front, of a port; the operands that the front one has moved. -/
  | port (p j i : Nat)
  | moved (p : Nat)
  /-- A system register as the strand reads it: flags, tile types, queue types and the others. -/
  | sys (idx : Nat)
  /-- A double of the allotment. -/
  | spad (off : Nat)
  deriving DecidableEq, Repr, Inhabited

/-- Who moves next. -/
inductive Turn where
  /-- A sequencer of a core may issue a word (R80). -/
  | engine (core : Nat) (e : Eng)
  /-- A sequencer issues a word whose access performs later than its issue (R182, R229). -/
  | later (core : Nat) (e : Eng)
  /-- The next element of a core's VAMO reaches its bank (R182). -/
  | vamoStep (core : Nat)
  /-- Element j of return i of a core is read anew, or the value of return i is fixed (R183, R229). -/
  | refetch (core i j : Nat)
  | fixLoad (core i : Nat)
  /-- The scheduler applies the next held effect of a gang that has committed (R370). -/
  | heldEffect
  /-- The next completion action of the oldest command of a unit, as a step of its own (R264). -/
  | completeStep (unit : CmdUnit)
  /-- A running command reads n operand bytes from an address on ahead of the others (R243, R247): command i of a copy
  queue, or a Girder's running command. -/
  | fetchAhead (unit : CmdUnit) (i va n : Nat)
  /-- The management path reads a register of a stopped strand (R117). -/
  | debugRead (core : Nat) (x : DebugItem)
  /-- A codec engine passes over bytes on its way to a random-access point (R327). -/
  | codecSkip (stream n : Nat)
  /-- The adaptive voltage control lowers the domain of a unit by a step (R401). -/
  | undervolt (unit : UnitId)
  /-- A command or event of the opcode table happens. -/
  | event (i : Instr)
  /-- The oldest unstarted command of a copy queue starts; its payload moves later (R247). -/
  | copyStart (core q : Nat)
  /-- Running command i of a copy queue reads its source, and its writes remain (R247); one of these, j, is made, or its first n
  bytes. -/
  | copyGather (core q i : Nat)
  | copyWrite (core q i j n : Nat)
  /-- The scheduler copies the record that a function's launch mailbox names (R351). -/
  | mailbox (fn : Nat)
  /-- The host writes or reads a BAR0 register of a function (R418): offset, bytes, value. -/
  | barWrite (fn off n val : Nat)
  | barRead (fn off n : Nat)
  /-- System software sets a stack's table pool and sharer directory through Virvar (R406). -/
  | tablePool (stack base size dir : Nat)
  /-- The BAR2 window of a function is placed (R420): base and size. -/
  | barWindow (fn base size : Nat)
  /-- System software grants frames of device memory to a virtual function (R420): from lo up to hi. -/
  | grant (fn lo hi : Nat)
  /-- A function is configured to require IDE, or no longer (R426). -/
  | ideRequire (fn : Nat) (on : Bool)
  /-- The inbound requests that follow come outside every IDE stream, or in one (R426). -/
  | ideTraffic (plain : Bool)
  /-- System software assigns a stream to a function with one of its vectors, or a buffer of a context (R417, R422). -/
  | assignStream (i fn vec : Nat)
  | assignBuf (ctx handle fn : Nat)
  /-- What an access of the scheduler or of a fixed engine found in a context is contained: a table page, or a page of
  memory, that cannot be read (R381, R414). -/
  | contain (page ctx : Nat) (table : Bool)
  /-- Something outside holds halt output 0 or 1 at a level, true for asserted, or lets it go (R430). -/
  | sense (out : Nat) (lvl : Option Bool)
  /-- Cycles pass. -/
  | tick (n : Nat)
  /-- A bit error strikes (R387). -/
  | upset (u : Upset)
  /-- A core's Trestle will find a mismatch at its next checked item (R390). -/
  | mismatch (core : Nat)
  deriving DecidableEq, Repr, Inhabited

namespace Config

/-- Free naturals: the n-th choice the spec leaves open (old or new value of an early read, R101). -/
opaque freeBits : Nat → Nat
/-- Whether a byte of a copy command's source that its own destination overlaps is read as its old value (R252): by
the choice counter and the byte's number among those that the command reads. -/
opaque freeOld : Nat → Nat → Bool
/-- The agent that moves at the n-th open scheduling choice (R20, R80, R231). -/
opaque freeTurn : Nat → Turn
/-- Which of the codes that R170 allows VEXP2F gives for an input code. -/
opaque exp2Pick : Nat → Nat
/-- Which of the codes that R172 allows fp32 VRCP gives for an input code. -/
opaque rcpPick : Nat → Nat
/-- Which of the codes that R172 allows fp32 VRSQ gives for an input code. -/
opaque rsqPick : Nat → Nat
/-- A byte of an open tile that its gang has not written (R214): core, offset, generation. -/
opaque tileByte : Nat → Nat → Nat → Byte
/-- Silicon stepping of ID_PART (R436). -/
opaque idStep : BitVec 16
/-- SHAKE256 digest, 64 bytes as a number (R428). -/
opaque shake256 : List Nat → Nat
/-- SHA3-512 digest of a certificate chain (R427). -/
opaque sha3 : List Nat → Nat
/-- Ed448 signature with a key over a transcript (R427, R428), and whether one verifies: public key, digest, signature
(R431). -/
opaque ed448 : List Nat → List Nat → Nat
opaque ed448Ok : List Nat → Nat → List Nat → Bool
/-- Parts of the board flash (R427, R431): 0 the management firmware and 1 its signature, 2 the vendor key, 3 the helper data,
4 the board configuration and 5 its signature, 6 the certificate chain of slot 0. -/
opaque flashPart : Nat → List Nat → List Nat
/-- The boot ROM (R428), and the digest of the vendor key that it holds (R431). -/
opaque bootRom : List Nat
opaque romKeyDigest : Nat
/-- The identity key that a start-up pattern and the helper data give, if any, its public key, and the public key that a
certificate chain names (R431, R434). -/
opaque identity : Nat → List Nat → Option (List Nat)
opaque publicKey : List Nat → List Nat
opaque certSubject : List Nat → List Nat
/-- What the signed configuration says of PLIM (R437). -/
opaque plimOf : List Nat → Nat
/-- The responder's capability flags (R427). -/
opaque spdmCaps : Nat
/-- The responder's session secret for a key exchange (R427). -/
opaque sessionKey : Nat → Nat → Nat
/-- The MAC that FINISH must carry for a session (R427). -/
opaque finishMac : Nat → Nat
/-- The 8 bytes that the change-mask unit keeps of a tile in the tile-state area (R333), from its AGE and ACC: their layout
is the unit's own. -/
opaque tileState : Nat → Nat → Dbl
/-- The host's answer to an ATS Translation Request (R423): function, PASID, page, time; none grants
no access, and the Bool grants writes. -/
opaque ats : Nat → Nat → Nat → Nat → Option (Nat × Bool)
/-- The predictive threshold of an array of a unit (R401). -/
opaque predictAt : UnitId → Nat → Nat
/-- One step of the 32-bit CRC signature over an item that the Trestle checks (R396). -/
opaque crcStep : Nat → Nat → Nat

end Config

end Sys2Proof
end

