-- ==== Sys2Proof/Machine/State.lean ====
section
/-! DEFINITION. The state of the device as plain data: cores with their strands, clusters, stacks, dies, the
scheduler, streams, the host side and the management side, with State.reset, and the reasons a step can stop. -/

namespace Sys2Proof.Machine

/-- Byte-addressed memory in canonical form: addresses strictly rising, no entry equal to 0, which is what an
unlisted address reads as (assumption 5). -/
abbrev Memory := List Host.Cell

/-- Fault codes (Table 18.1, R378). -/
inductive FCode where
  | illegalEncoding | illegalOperand | privilege | alignment | translation | permission
  | translationPoison | memoryUe | queueUnderflow | delaySlot | caissonCount | commandField | lease
  | boundaryOverflow | futureOverwrite | keystoneRule | checkerMismatch | postcommitLong | trap
  | watchdog | scratchBounds
  deriving DecidableEq, Repr, Inhabited

/-- What a fault carries into its record (Table 18.4). -/
structure FInfo where
  code : FCode
  cause : Nat := 0
  precise : Bool := true
  rewritten : Bool := false
  engine : Nat := 0
  text : Nat := 0xFFFFFFFF
  addr : Nat := 0
  data : Nat := 0
  kslot : Nat := 0
  kpos : Nat := 0
  lane : Nat := 0
  cstep : Nat := 0
  aux : Option Nat := none
  ckind : Nat := 0
  cqueue : Nat := 0
  deriving DecidableEq, Repr, Inhabited

/-- Program counter, walk count and delay-slot progress of one sequencer (R78, R80, R88). -/
structure EngSt where
  pc : Nat := 0
  walk : Nat := 0
  /-- Delay slots of a transfer still to execute. -/
  slots : Nat := 0
  taken : Bool := false
  target : Nat := 0
  /-- Earliest cycle at which the sequencer issues its next word (R80). -/
  next : Nat := 0
  /-- The line of instruction memory it has taken, numbered from 1 (R80). -/
  line : Nat := 0
  deriving DecidableEq, Repr, Inhabited

/-- The registers of Table 5.1 (R99) and the predicate stack, top first (R93). -/
structure Regs where
  s : List Dbl := List.replicate 32 0#64
  c : BitVec 4 := 0#4
  b : List Word := List.replicate 8 0#32
  v : List Vec := List.replicate 32 0#1024
  t : List Tile := List.replicate 8 0#65536
  tt : List Nat := List.replicate 8 4
  km : List Vec := List.replicate 4 0#1024
  kc : List Vec := List.replicate 4 0#1024
  bd : List (BitVec 16) := List.replicate 16 0#16
  w : List Nat := List.replicate 8 0
  e : BitVec 32 := 0#32
  pred : List Mask := [BitVec.allOnes 128]
  deriving DecidableEq, Repr, Inhabited

/-- A unit of a destination whose bounded result is in flight (R101). -/
inductive HzUnit where
  | s (n : Nat)
  | v (n : Nat)
  | t (n : Nat)
  deriving DecidableEq, Repr, Inhabited

/-- One bounded result in flight: the register already holds the new value; until due a reader may get the
old one, lane of width bits by lane, of the bits written. Newest first. -/
structure Hazard where
  unit : HzUnit
  old : Nat
  width : Nat
  due : Nat
  /-- The bits of the destination that it writes. -/
  mask : Nat
  /-- The engine that writes. A reader of the other engine of a tile may get the old value before the cycle far, until a
  queue, a token or an event has joined the two: known names the engines joined (R104). -/
  eng : Eng := .s
  far : Nat := 0
  known : List Eng := []
  /-- Type code of the tile before the TCFG whose result this is (R108). -/
  was : Option Nat := none
  deriving DecidableEq, Repr, Inhabited

/-- What has happened to a strand within the current cycle, where the order within the cycle decides: events set
(R112), flags set (R44), and tokens that a wait has found clear (R111). -/
structure CycleSt where
  evs : BitVec 32 := 0#32
  fls : BitVec 6 := 0#6
  waited : BitVec 8 := 0#8
  deriving DecidableEq, Repr, Inhabited

/-- A WAITA or BAR WAIT that waits (R195, R198): the object it reads, fixed at issue, and what the steps on the object have
shown so far. -/
structure Poll where
  va : Nat
  core : Nat
  off : Nat
  /-- Relation and size of a WAITA; none for BAR WAIT. -/
  test : Option (Rel × WSize)
  /-- What the object is compared with. -/
  y : Dbl
  /-- Issue cycle and limit of a WAITA. -/
  t0 : Nat := 0
  lim : Nat := 0
  /-- Of FGET, FPEEK, JOIN or TALLOC, which look at what they wait for at their own turns only: va and y hold what they read of
  their registers at issue (R118). -/
  quiet : Bool := false
  /-- The value that satisfied a WAITA, or 1 for a phase that has moved on and 0 for ERR found before that. -/
  hit : Option Dbl := none
  deriving DecidableEq, Repr, Inhabited

/-- Where a token-tracked read lands. -/
inductive RetDst where
  | none
  | s (n : Nat)
  | v (n : Nat)
  | t (n : Nat)
  deriving DecidableEq, Repr, Inhabited

/-- Where an access lands once it is checked and translated (R223, R404). -/
inductive Target where
  /-- Offset of a core's scratchpad. -/
  | spad (core off : Nat)
  /-- Byte of a Caisson slot: core, offset in its scratchpad. -/
  | tile (core off : Nat)
  /-- Offset of a die's weight store. -/
  | wst (die off : Nat)
  /-- Device memory at a physical address. -/
  | mem (pa : Nat)
  /-- Host or peer memory at a bus address. -/
  | bus (a : Nat)
  /-- Aperture of a context: index and offset. -/
  | ap (ctx i off : Nat)
  deriving DecidableEq, Repr, Inhabited

/-- One element of a load whose value may still be fixed anew (R229): the address it is read at, its bytes, the bit of the
return it fills, and for S, which fills the whole register, whether it is signed. -/
structure RetSrc where
  va : Nat
  bytes : Nat
  pos : Nat := 0
  ext : Option Bool := none
  deriving DecidableEq, Repr, Inhabited

/-- One memory return in flight (R102): its value, the bits of the destination it still writes, and its token. -/
structure Ret where
  dst : RetDst
  val : Nat
  mask : Nat
  tok : Nat
  eng : Eng := .s
  /-- Bits of the unit that lands whole. -/
  width : Nat := 64
  /-- Ordering class, and the elements that may still perform later than the model first made them (R229); none once the
  load has performed. -/
  cls : Nat := 0
  src : List RetSrc := []
  deriving DecidableEq, Repr, Inhabited

/-- A VAMO whose elements are on their way to their banks (R182): its function, token, destination and data, the elements
still to apply, and the old values of the others. -/
structure VamoSt where
  f : VAmoFn
  tok : Nat
  dst : RetDst
  x : Nat
  todo : List (Nat × Target)
  vs : List (Nat × Nat) := []
  deriving DecidableEq, Repr, Inhabited

/-- A store that has not performed (R147, R181, R229, R295): the bytes in order. -/
structure PStore where
  tok : Option Nat
  cls : Nat
  eng : Eng
  text : Nat
  writes : List (Target × Byte)
  /-- How many of the bytes each element has, in order, where there are several. -/
  cuts : List Nat := []
  /-- The bytes of which it writes some bits only: an n4 element beside one that is masked off (R167). -/
  part : List (Target × Nat) := []
  /-- The tile register that a TST stores (R108). -/
  tile : Option Nat := none
  /-- The translations it went through: virtual page and page size as a shift (R411). -/
  via : List (Nat × Nat) := []
  deriving DecidableEq, Repr, Inhabited

/-- Port configuration (Table 7.7). -/
structure PortCfg where
  base : Nat
  dir : Nat
  esz : Nat
  oc : Nat
  tv : Nat
  tok : Nat
  estride : Int
  counts : List Nat
  strides : List Int
  deriving DecidableEq, Repr, Inhabited

/-- A port's configuration queue, markers as none, with the operands the current one has moved. -/
structure Port where
  cfgs : List (Option PortCfg) := []
  moved : Nat := 0
  deriving DecidableEq, Repr, Inhabited

/-- The queues of a strand (R89, R136); a marker is none (R148). -/
structure Queues where
  q : List (List (Option Dbl)) := List.replicate 6 []
  fq : List (Option Word) := []
  oq : List (List Bool) := List.replicate 4 []
  port : List Port := List.replicate 4 {}
  src : List Nat := List.replicate 6 15
  snk : List Nat := List.replicate 6 15
  /-- V pushed into V→S, V→M, and M into M→S, since the start or their engine's last drain (R150). -/
  vsPushed : Bool := false
  vmPushed : Bool := false
  msPushed : Bool := false
  /-- V pushed an entry into V→M since the marker the last MQDRAIN took there (R150). -/
  vmFresh : Bool := false
  deriving DecidableEq, Repr, Inhabited

/-- A write of a payload that has been read but not written (R247): the cluster of a multicast, none for a command's only
destination; the address; and the bytes. -/
structure CWrite where
  clu : Option Nat
  va : Nat
  bytes : List Byte
  deriving DecidableEq, Repr, Inhabited

/-- A command in a copy queue: the command register it was copied from, what CISSUE fixed, and its progress
(R246, R247). -/
structure CCmd where
  k : Nat
  text : Nat
  started : Bool := false
  /-- Its payload is in place. -/
  done : Bool := false
  /-- Completion actions taken so far (R264), and source bytes read ahead of the others (R247): address and byte. -/
  acted : Nat := 0
  ahead : List (Nat × Byte) := []
  /-- The writes still to perform of a payload whose source has been read (R247); none before that. -/
  todo : Option (List CWrite) := none
  /-- Caisson slots the command names: core, first unit. -/
  slots : List SlotName := []
  bytes : Nat := 0
  deriving DecidableEq, Repr, Inhabited

/-- What MISSUE fixes of a CHAIN step (R303 to R306): its mode, core, factors, dimensions before and after, banks,
the core's array and its scale word. below is the product of the input factors of the uncontracted cores after the
step's core. -/
structure ChStep where
  step : Nat
  mode : Nat
  core : Nat
  ik : Nat
  ok : Nat
  below : Nat
  bt : Nat
  pin : Nat
  poutOld : Nat
  dlOld : Nat
  drOld : Nat
  dlK : Nat
  drK : Nat
  src : Nat
  dst : Nat
  addr : Nat
  scale : Nat
  deriving DecidableEq, Repr, Inhabited

/-- A command in a Girder queue (R277, R278): the command register it was copied from, what MISSUE popped and
fixed, and its progress. -/
structure GCmd where
  core : Nat
  k : Nat
  text : Nat
  fmt : Nat := 0
  /-- Scale word popped from V→M (R280). -/
  vm : Option Nat := none
  mig : Bool := false
  started : Bool := false
  done : Bool := false
  /-- It ran on another Girder (R292). -/
  migrated : Bool := false
  /-- Cycle at which it entered the queue. -/
  since : Nat := 0
  ch : Option ChStep := none
  /-- Keystone slot and replacement position it was issued from (R318). -/
  kslot : Option (Nat × Nat) := none
  slots : List SlotName := []
  /-- Number of the strand's window it belongs to (R289). -/
  win : Nat := 0
  /-- Bytes ACCRD wrote, and the D it measured (R278, R288). -/
  bytes : Nat := 0
  d : Nat := 0
  /-- Completion actions taken so far (R264), and operand bytes read ahead of the others (R243): address and byte. -/
  acted : Nat := 0
  ahead : List (Nat × Byte) := []
  deriving DecidableEq, Repr, Inhabited

/-- A command that has run, with the banks that other strands' commands wrote since (R289, R290). -/
structure Ran where
  cmd : GCmd
  foul : List Nat := []
  deriving DecidableEq, Repr, Inhabited

/-- An entry of a Girder queue: a window marker of a core, or a command (R272). -/
inductive GEntry where
  | marker (core : Nat)
  | cmd (c : GCmd)
  deriving DecidableEq, Repr, Inhabited

/-- An effect held until the post-commit region (R264, R288, R344, R374). -/
inductive Held where
  /-- Signal word: offset in the scratchpad and value. -/
  | sgw (off val : Nat)
  /-- DEC action on a counter of the context. -/
  | dec (id : Nat)
  /-- Delta report: stream, layer, tile, D and frame. -/
  | delta (layer tile d : Nat)
  /-- CMU register write: index and value. -/
  | cmu (idx val : Nat)
  /-- SPAWNed record: its 64 bytes as a number, and its address. -/
  | spawn (r addr : Nat)
  deriving DecidableEq, Repr, Inhabited

/-- Lease state of a strand (R272, R273). -/
inductive LeaseSt where
  | none | waiting | held | lapsed
  deriving DecidableEq, Repr, Inhabited

/-- One entry of the access table (R208). -/
structure AccEntry where
  core : Nat
  unit : Nat
  cls : Nat
  write : Bool
  /-- TRET took the entry away; earlier commands keep their access (R217). -/
  retired : Bool := false
  deriving DecidableEq, Repr, Inhabited

/-- A provisional read decrement: slot and generation of the handle (R216). -/
structure Decr where
  core : Nat
  unit : Nat
  gen : Nat
  deriving DecidableEq, Repr, Inhabited

/-- A pin of PSNAP (R242): buffer handle and the selectors pinned. -/
structure Pin where
  buf : Nat
  sel : List Bool
  deriving DecidableEq, Repr, Inhabited

/-- A replacement word of a group that Keystone has taken (R317, R318): the text offset of the group's first word,
the queue entries of S→M, fq and V→M that the word takes, the rule's slot and the position in the replacement. -/
structure KWord where
  ins : Instr
  off : Nat
  sm : Dbl := 0#64
  fq : Word := 0#32
  vm : Dbl := 0#64
  kslot : Nat
  kpos : Nat
  deriving DecidableEq, Repr, Inhabited

/-- Keystone of a strand (R319, R322, R323). -/
structure KState where
  /-- Slots 0 to 63; each holds the 96-byte record as a number, or nothing. -/
  slots : List (Option Nat) := List.replicate 64 none
  pr : Bool := false
  pf : Bool := false
  /-- Replacement words of the group taken that have not issued. -/
  window : List KWord := []
  /-- Entries of S→M, fq and V→M of that group that have not left their queues (R317). -/
  left : Nat × Nat × Nat := (0, 0, 0)
  /-- M's sequencer once the group's last replacement word has issued (R310). -/
  final : EngSt := {}
  /-- Slot of a rule that has matched and waits for its queue entries (R317). -/
  pend : Option Nat := none
  applied : Nat := 0
  last : Nat := 0
  lv : Bool := false
  en : Bool := true
  deriving DecidableEq, Repr, Inhabited

/-- Chain state of a strand (R300 to R302): the loaded program's bytes as a number, the step the next CHAIN performs
while it is open, and the batch of step 0. -/
structure ChainState where
  prog : Option Nat := none
  opened : Bool := false
  nxt : Nat := 0
  batch : Nat := 0
  deriving DecidableEq, Repr, Inhabited

/-- One outstanding CMLIST (R266). -/
structure CmList where
  layer : Nat
  tok : Nat
  dst : Nat
  frame : Nat
  deriving DecidableEq, Repr, Inhabited

/-- A launch record in the scheduler (R348, R354, R360, R361). -/
structure TaskRec where
  flags : Nat := 0
  level : Nat := 0
  n : Nat := 1
  place : Nat := 0
  stage : Nat := 15
  banks : Nat := 0
  ctx : Nat := 0
  image : Nat := 0
  dep : Option Nat := none
  arg : Nat := 0
  v0 : Nat := 0
  jaddr : Nat := 0
  psrc : Nat := 0
  plen : Nat := 0
  poff : Nat := 0
  wst : Nat := 0
  /-- 0 mailbox, 1 SPAWN, 2 frame, 3 list (Table 17.3). -/
  src : Nat := 0
  /-- Value of s4 (R366). -/
  s4 : Nat := 0
  /-- Frame number of a frame or list launch. -/
  frame : Nat := 0
  addr : Nat := 0
  waiting : Bool := false
  spilled : Bool := false
  /-- Microsecond clock value, in cycles, at which it first became ready. -/
  readyAt : Nat := 0
  disc : Nat := 0
  /-- Checker mismatches so far, and the core its relaunch must use first (R390). -/
  mism : Nat := 0
  onCore : Option (Nat × Nat) := none
  /-- Started by a boot mailbox on a withdrawn core (R364): the scheduler never launches it again. -/
  service : Bool := false
  /-- Layer count of the context's stream at the launch (R266). -/
  layers : Nat := 0
  deriving DecidableEq, Repr, Inhabited

/-- COMMIT and HALT progress of a strand (R368, R371). -/
inductive CommitSt where
  /-- Not issued. -/
  | run
  /-- Issued; waiting for the strand's own work and its gang. -/
  | drain
  /-- The gang has committed: post-commit region. -/
  | done
  deriving DecidableEq, Repr, Inhabited

/-- One register context of a core and the strand in it. -/
structure Strand where
  live : Bool := false
  /-- The strand's start is under way: boot mailbox written, STRAND_START not yet done (R366). -/
  starting : Bool := false
  gang : Nat := 0
  member : Nat := 0
  task : TaskRec := {}
  image : Nat := 0
  entry : Nat := 0
  vregs : Nat := 32
  allot : Nat := 0
  startedAt : Nat := 0
  es : EngSt := {}
  ev : EngSt := {}
  em : EngSt := {}
  ec : EngSt := {}
  regs : Regs := {}
  qs : Queues := {}
  hz : List Hazard := []
  rets : List Ret := []
  psts : List PStore := []
  vamo : Option VamoSt := none
  flags : BitVec 6 := 0#6
  /-- Flags of bounded results, each with the cycle by which it is set (R44). -/
  flHz : List (Nat × Nat) := []
  cyc : CycleSt := {}
  /-- Engines that have issued an operation under each token, or set each event, themselves or by a command: bits of their
  numbers (R104). -/
  tokBy : List Nat := List.replicate 8 0
  evBy : List Nat := List.replicate 32 0
  /-- Writes of system registers that take effect in the next cycle, oldest first: index and value (R134). -/
  sysq : List (Nat × Nat) := []
  slipw : Nat := 256
  /-- The slip bound before the last write of SEQ_SLIPW, and the first cycle of the new one (R82). -/
  slipOld : Nat := 256
  slipFrom : Nat := 0
  wtimeout : Nat := 0
  /-- Divider free again at this cycle (R120). -/
  divAt : Nat := 0
  poll : Option Poll := none
  /-- S has issued HALT and stopped (R371). -/
  halted : Bool := false
  commit : CommitSt := .run
  /-- Text offset of the COMMIT or HALT that waits (R368). -/
  commitPos : Nat := 0
  commitAt : Nat := 0
  acc : List AccEntry := []
  decs : List Decr := []
  pins : List Pin := []
  lease : LeaseSt := .none
  /-- An MLEASE, or a MISSUE or MMARK after a lapse, waits for the lease (R272 to R274). -/
  leaseAsk : Bool := false
  /-- Window of M (R289): commands issued since the marker, its number, and the banks other strands wrote in it. -/
  window : List GCmd := []
  winNo : Nat := 0
  foul : List Nat := []
  chain : ChainState := {}
  ks : KState := {}
  codeTab : List (Option (List Nat)) := List.replicate 16 none
  cml : List CmList := []
  held : List Held := []
  /-- The choice counter when each was held, which orders them across a gang (R370). -/
  heldAt : List Nat := []
  /-- ACCRD commands with DELTA issued and not complete (R137). -/
  deltaOut : Nat := 0
  stall : Nat := 0
  /-- A word issued since the last cycle. -/
  issued : Bool := false
  stopped : Bool := false
  tlbMiss : Nat := 0
  /-- Pages whose walk for this strand found a fault (R410). -/
  walkFault : List Nat := []
  /-- Regions of the weight store its WSTOREs wrote (R228). -/
  wstWritten : List Nat := []
  /-- The drain of an engine whose markers are partly taken (R150): per engine, queues already drained. -/
  drain : List Nat := List.replicate 4 0
  /-- MQDRAIN or CQDRAIN has fixed its cancellation set (R151). -/
  cancelled : Bool := false
  deriving DecidableEq, Repr, Inhabited

/-- A stage of a pipeline (Table 17.2). -/
structure Stage where
  entry : Nat
  trig : Nat
  layer : Nat
  gang : Nat
  flags : Nat
  banks : Nat
  maxc : Nat
  wst : Nat
  deriving DecidableEq, Repr, Inhabited

/-- An edge of a pipeline (Table 17.2). -/
structure Edge where
  src : Nat
  dst : Nat
  cls : Nat
  quota : Nat
  deriving DecidableEq, Repr, Inhabited

/-- A registered image (R77, R352). -/
structure Image where
  handle : Nat := 0
  ctxs : List Nat := []
  text : List Nat := []
  data : List Nat := []
  rules : List Nat := []
  vregs : Nat := 32
  slip : Nat := 0
  scratch : Nat := 4096
  entry : Option Nat := none
  stages : List Stage := []
  edges : List Edge := []
  /-- The image bytes as the loader read them (R428). -/
  bytes : List Nat := []
  deriving DecidableEq, Repr, Inhabited

/-- A cached line (R222): its key (line address), the class it was filled under, valid and dirty bytes. -/
structure Line where
  key : Nat
  cls : Nat
  valid : Mask
  dirty : Mask
  data : Vec
  deriving DecidableEq, Repr, Inhabited

/-- A TLB entry (R409): XID, virtual page base, page size as a shift, frame and leaf bits. -/
structure TlbEntry where
  xid : Nat
  vpage : Nat
  shift : Nat
  frame : Nat
  w : Bool
  c : Bool
  mig : Bool
  /-- Physical addresses of the table pages the walk read (R414). -/
  tables : List Nat := []
  deriving DecidableEq, Repr, Inhabited

/-- A core (R13 to R15). -/
structure Core where
  ord : Strand := {}
  par : Strand := {}
  /-- The Parapet context runs (R14). -/
  inPar : Bool := false
  spad : Memory := []
  l1 : List Line := []
  tlb : List TlbEntry := []
  /-- Resident images, least recently started first (R365). -/
  imem : List Image := []
  mbImage : Nat := 0
  mbArg : Nat := 0
  /-- Withdrawn from the scheduler as a pinned service (R364). -/
  pinned : Bool := false
  keyEn : Bool := true
  /-- SEQ_CORR: command, tile, vector, scalar corrections (R115). -/
  kcorr : Nat := 0
  tcorr : Nat := 0
  vcorr : Nat := 0
  scorr : Nat := 0
  spadCorr : Nat := 0
  cacheCorr : Nat := 0
  fenced : Bool := false
  /-- Power-gated (R402), and the cycle of the commit point. -/
  gated : Bool := false
  gateAt : Nat := 0
  /-- The Trestle's own copy disagrees: the next checked item mismatches (R390). -/
  trestleBad : Bool := false
  /-- CRC signature of the Parapet context (R396). -/
  crc : Nat := 0
  /-- Progress of R395: 0 none, 1 waiting for a post-commit region, 2 Parapet context started. -/
  preempt : Nat := 0
  ldq : List CCmd := []
  stq : List CCmd := []
  /-- Cycle since which the core has been free (R438). -/
  freeSince : Nat := 0
  deriving DecidableEq, Repr, Inhabited

/-- States of a Caisson slot (Table 10.3). -/
inductive SlotSt where
  | free | opened | pending | sealed
  deriving DecidableEq, Repr, Inhabited

/-- A Caisson slot (R205, R209, R210, R212): its written bytes by offset, rising. -/
structure Slot where
  core : Nat
  unit : Nat
  cls : Nat
  gen : Nat
  st : SlotSt
  count : Nat
  gang : Nat
  bytes : List (Nat × Byte)
  /-- TRET has marked it to become free at COMMIT (R217). -/
  give : Bool := false
  deriving DecidableEq, Repr, Inhabited

/-- A partition (R205) and the TALLOCs waiting on it, in order (R214). -/
structure Partition where
  ctx : Nat
  edge : Nat
  cls : Nat
  slots : List Slot
  waiting : List Nat
  deriving DecidableEq, Repr, Inhabited

/-- A Girder (R271 to R275). -/
structure Girder where
  banks : List Memory := List.replicate 4 []
  sbs : List Memory := List.replicate 2 []
  /-- The WLOAD that filled each buffer last, since the gang received it (R282, R283). -/
  sbLoad : List (Option GCmd) := [none, none]
  sbScale : List Memory := List.replicate 2 []
  /-- Gang holding each of a0 to a3, SB0, SB1. -/
  owner : List (Option Nat) := List.replicate 6 none
  queue : List GEntry := []
  holder : Option Nat := none
  prev : Nat := 3
  lcnt : Nat := 0
  grantAt : Nat := 0
  /-- GIR_LEASE_LEN, GIR_LEASE_CYC and GIR_MIG_WAIT (R275), and the limits of the current lease. -/
  leaseLen : Nat := 16
  leaseCyc : Nat := 65536
  migWait : Nat := 8192
  curLen : Nat := 16
  curCyc : Nat := 65536
  /-- Commands run whose window may be replayed, and windows replayed once: core and number (R290). -/
  ran : List Ran := []
  /-- Who wrote a bank since its gang received it: bank, core, window number (R308). -/
  wrote : List (Nat × Nat × Nat) := []
  replayed : List (Nat × Nat) := []
  replays : Nat := 0
  /-- Throttle factor of the power limiter (R437). -/
  k : Nat := 1
  fenced : Bool := false
  deriving DecidableEq, Repr, Inhabited

/-- A cluster (R15). -/
structure Cluster where
  /-- Carve in 4 KiB units (R186). -/
  carve : Nat := 0
  gir : Girder := {}
  slice : List Line := []
  tlb : List TlbEntry := []
  parts : List Partition := []
  /-- Generations of slots that no partition holds now: core, first unit, generation. -/
  gens : List (Nat × Nat × Nat) := []
  fenced : Bool := false
  gated : Bool := false
  gateAt : Nat := 0
  deriving DecidableEq, Repr, Inhabited

/-- A translation request in a miss queue (R410): core, XID and address, with the word that made it. -/
structure WalkReq where
  core : Nat
  xid : Nat
  va : Nat
  eng : Eng := .s
  text : Nat := 0
  deriving DecidableEq, Repr, Inhabited

/-- A pointer entry in a walk cache (Table 19.4): the walker, the XID, the level of the entry, the address bits above
those that the level maps, the table it points to, and the tables read to reach it. -/
structure WalkPtr where
  walker : Nat
  xid : Nat
  level : Nat
  pre : Nat
  table : Nat
  tables : List Nat
  deriving DecidableEq, Repr, Inhabited

/-- A stack domain (R15, R404, R406). -/
structure Stack where
  poolBase : Nat := 0
  poolSize : Nat := 0
  dirBase : Nat := 0
  missq : List WalkReq := []
  /-- Pointer entries cached by the walkers (Table 19.4). -/
  walkCache : List WalkPtr := []
  hbmCorr : Nat := 0
  fenced : Bool := false
  selfRefresh : Bool := false
  /-- Cycle of the last access (R438). -/
  lastAccess : Nat := 0
  /-- Lines that the memory-side cache has not written to HBM since they were written (Table 11.1), by number. -/
  msc : List Nat := []
  deriving DecidableEq, Repr, Inhabited

/-- A compute die's weight store (R225, R228). -/
structure Die where
  wst : Memory := []
  /-- WST_READY, 80 bits. -/
  ready : Nat := 0
  deriving DecidableEq, Repr, Inhabited

/-- A published buffer (R236). -/
structure PubBuf where
  handle : Nat
  desc : BufDesc
  /-- Selector per extent: true names backing B. -/
  sel : List Bool
  version : Nat
  /-- The function that system software assigned it to (R417); none while it is its context's. -/
  owner : Option Nat := none
  deriving DecidableEq, Repr, Inhabited

/-- A built tile of an aperture (R245): index, bytes, and the source bytes it was built from, as addresses with lengths. -/
structure ApTile where
  idx : Nat
  bytes : List Nat
  src : List (Nat × Nat)
  /-- Clusters whose drained lines changed source bytes with no release yet (R245). -/
  drained : List Nat := []
  deriving DecidableEq, Repr, Inhabited

/-- An aperture (R244). -/
structure Aperture where
  idx : Nat
  desc : ApDesc
  tiles : List ApTile
  deriving DecidableEq, Repr, Inhabited

/-- A scheduler context (R353) and what is attached to it. -/
structure Ctx where
  configured : Bool := false
  base : Nat := 4
  ceil : Nat := 4
  weight : Nat := 1
  qbase : Nat := 0
  qcap : Nat := 1
  dbase : Nat := 0
  dcnt : Nat := 0
  xid : Nat := 0
  faultBase : Nat := 0
  falog : Nat := 4
  seq : Nat := 0
  vec : Nat := 0
  owner : Nat := 0
  pasid : Option Nat := none
  stream : Option Nat := none
  /-- Pipeline instance: image, partition cluster, ARG (R353). -/
  inst : Option (Nat × Nat × Nat) := none
  /-- Stage quotas (R358); none before the first evaluation. -/
  quotas : List (Option Nat) := []
  deficit : Int := 0
  fenced : Bool := false
  bufs : List PubBuf := []
  aps : List Aperture := []
  deriving DecidableEq, Repr, Inhabited

/-- An extent of a gang's write set (R238): buffer and extent. -/
structure WEntry where
  buf : Nat
  ext : Nat
  deriving DecidableEq, Repr, Inhabited

/-- A member of a gang: its core and whether it has ended. -/
structure Member where
  core : Nat
  ended : Bool := false
  deriving DecidableEq, Repr, Inhabited

/-- A placed gang (R188). -/
structure Gang where
  id : Nat
  task : TaskRec
  members : List Member
  level : Nat
  startedAt : Nat
  committed : Bool := false
  wset : List WEntry := []
  /-- Extents that first writes of this gang wait for (R241): buffer, extent, and the choice counter when the wait began. -/
  wants : List (Nat × Nat × Nat) := []
  /-- Bytes of compressed pages outside every buffer that the gang's commands wrote, newest first: address and byte before
  (R268, R287). -/
  raw : List (Nat × Byte) := []
  fault : Nat := 0
  killed : Bool := false
  deriving DecidableEq, Repr, Inhabited

/-- A held effect of a committed gang that has not been applied (R370). -/
structure HeldFx where
  gang : Nat
  core : Nat
  task : TaskRec
  h : Held
  deriving DecidableEq, Repr, Inhabited

/-- The scheduler (17_tasks_and_scheduler.md). -/
structure Sched where
  ctxs : List Ctx := List.replicate 1024 {}
  /-- Dependence counters that are not 0: number and value (R354). -/
  counters : List (Nat × Int) := []
  recs : List TaskRec := []
  gangs : List Gang := []
  nextGang : Nat := 1
  ptr : List Nat := List.replicate 24 0
  age : Nat := 100
  quant : Nat := 10
  drop : Nat := 0
  /-- Spawns that found a memory queue full (R363). -/
  refused : Nat := 0
  nextQuota : Nat := 23000
  images : List Image := []
  /-- Records built for a frame or list launch and held at their source (R363). -/
  heldLaunch : List TaskRec := []
  /-- Held effects of committed gangs still to apply, in their order (R370). -/
  fx : List HeldFx := []
  deriving DecidableEq, Repr, Inhabited

/-- The decision of one tile and what it leaves (R333 to R337): action 0 RECOMP, 1 MOTION, 2 INPLACE, its motion, ACC,
AGE, the delta reports counted and the greatest D among them. -/
structure TileDec where
  act : Nat
  mx : Int := 0
  my : Int := 0
  acc : Nat := 0
  age : Nat := 0
  reps : Nat := 0
  d : Nat := 0
  deriving DecidableEq, Repr, Inhabited

/-- A decided layer of a frame (R336, R339). -/
structure LayerDec where
  layer : Nat
  frame : Nat
  tiles : List TileDec
  deriving DecidableEq, Repr, Inhabited

/-- A codec stream (R325 to R345). -/
structure Stream where
  ctx : Nat := 0
  /-- The function that system software assigned it to (R417); none while it is its context's. -/
  owner : Option Nat := none
  /-- Its vector among those of its function (R422). -/
  vec : Nat := 0
  desc : StreamDesc := default
  engine : Nat := 0
  slots : Nat := 0
  paused : Bool := false
  err : Bool := false
  frame : Nat := 0
  delivered : Bool := false
  cold : Bool := true
  /-- A decode error: the engine looks for the next random-access point (R327). -/
  resync : Bool := false
  bsWrite : Nat := 0
  bsRead : Nat := 0
  ovr : Bool := false
  /-- CMU_THRESHn, CMU_REFRESHn, CMU_GUARDn (R343), by layer or zone. -/
  thresh : List Nat := List.replicate 64 0
  refresh : List Nat := List.replicate 64 1
  guards : List Nat := List.replicate 8 0
  stray : Nat := 0
  /-- First frame whose decisions are kept: the first since creation or since the last fence (R340). -/
  base : Nat := 0
  /-- Cold frames from base on (R340). -/
  colds : List Nat := []
  /-- Layers decided; the newest one of a layer holds its tile state (R333). -/
  decs : List LayerDec := []
  /-- Frame-store entries that running or ready tasks still hold: frame numbers (R331). -/
  busy : List Nat := []
  deriving DecidableEq, Repr, Inhabited

/-- The host, peers and the management side that the host talks to (20_host_and_peers.md). -/
structure HostSide where
  mem : Memory := []
  linkUp : Bool := false
  width : Nat := 0
  rate : Nat := 0
  /-- LMBX of function n: 0 the physical function, 1 to 16 virtual functions (R419); 17 stands for the management core. -/
  lmbx : List (Option Nat) := List.replicate 18 none
  /-- BAR2 windows per function: base and size (R420). -/
  bar2 : List (Nat × Nat) := (0, 0x40000000) :: List.replicate 16 (0, 0x10000000)
  /-- Frames granted to virtual functions (R420): function, first physical address, end. -/
  grants : List (Nat × Nat × Nat) := []
  /-- MSI-X: masked vectors, pending vectors, messages sent (R422). -/
  msixMask : List Nat := []
  /-- Entries of the MSI-X tables that are not 0: vector, and message address and data as a number (R418, R422). -/
  msixTab : List (Nat × Nat) := []
  msixPend : List Nat := []
  msixSent : List Nat := []
  /-- Messages the host has received, newest last: tag and value (Host.lean lists the tags). -/
  outbox : List (Nat × Nat) := []
  /-- Address translation cache: function, PASID, page, target page, write (R423). -/
  atc : List (Nat × Nat × Nat × Nat × Bool) := []
  /-- IDE streams keyed: stream and key (R426). -/
  ide : List (Nat × Nat) := []
  /-- Functions configured to require IDE (R426). -/
  ideOnly : List Nat := []
  /-- The inbound requests that arrive now come outside every IDE stream (R426). -/
  plain : Bool := false
  /-- SPDM (R427): 0 start, 1 version, 2 capabilities, 3 algorithms; session phase; transcript; chains. -/
  spdm : Nat := 0
  session : Nat := 0
  sessionId : Nat := 0
  transcript : List Nat := []
  chains : List (List Nat) := List.replicate 8 []
  deriving DecidableEq, Repr, Inhabited

/-- A write of ERR_PHALT at the comparator (R396): from core A or B, its value, the signature, the cycle it came in, and
whether it has counted as missing its partner. -/
structure PWrite where
  fromA : Bool
  val : Nat
  sig : Nat
  since : Nat
  counted : Bool := false
  deriving DecidableEq, Repr, Inhabited

/-- Error reporting and the Parapet (R386 to R400). -/
structure Err where
  wdog : Nat := 0x04000000
  coreA : Nat := 0
  coreB : Nat := 0
  img : Nat := 0
  designated : Bool := false
  dead : Nat := 1000
  arm : Bool := false
  count : Nat := 0
  zone : Nat := 0
  latch : Bool := true
  run : Bool := false
  pend : Bool := false
  ha : Bool := true
  hb : Bool := true
  /-- Levels that something outside the device holds HALT_A and HALT_B at; none where the output drives its own (R430). -/
  sense : List (Option Bool) := [none, none]
  /-- Cycles for which each output has been sensed at another level than it drives; none once that has latched it (R430). -/
  off : List (Option Nat) := [some 0, some 0]
  /-- Writes of this run that wait for their partner, oldest first. -/
  unpaired : List PWrite := []
  runNo : Nat := 0
  /-- Cycle at which the running Parapet task started (R398). -/
  startAt : Nat := 0
  /-- Parapet cores whose Parapet strand has ended this run. -/
  ended : List Nat := []
  /-- ERR_PSTAT value and zone mask at the trigger (R395 step 6). -/
  trigStat : Nat := 0
  /-- The same at the trigger that set PEND last. -/
  pendStat : Nat := 0
  /-- Poisoned pages: physical page numbers (R381). -/
  poisoned : List Nat := []
  retired : List Nat := []
  /-- Voltage steps below nominal of the domain of a unit's array; a unit not listed runs at nominal (R401). -/
  volt : List (UnitId × Nat) := []
  /-- Reports held since a cycle, by unit (R401). -/
  reports : List (UnitId × Nat) := []
  /-- Lines that could not leave a cache, since their bytes or their page cannot be used (R381): their number, and the last
  one's address. -/
  lost : Nat × Nat := (0, 0)
  /-- Corrected errors of the last second (R401): unit, array of the unit, cycle. -/
  corrs : List (UnitId × Nat × Nat) := []
  /-- The gang of the running Parapet task, number 0 (R398). -/
  pgang : Option Gang := none
  deriving DecidableEq, Repr, Inhabited

/-- Translation registers of the management path (R403, R411, R415). -/
structure Xlt where
  xids : List (Nat × XidRec) := []
  inva : Nat := 0
  invXid : Nat := 0
  invMode : Nat := 0
  busy : Bool := false
  /-- The invalidation in progress: MODE, XID and page at its GO. -/
  run : Nat × Nat × Nat := (0, 0, 0)
  deriving DecidableEq, Repr, Inhabited

/-- Power, clocks and boot (21_bringup_and_power.md). -/
structure Power where
  ready : Bool := true
  failStep : Nat := 0
  cause : Nat := 0
  flash : List Nat := []
  /-- The flash as the boot sequence read it, and the management core's key store, which holds the identity key (R431,
  R434). -/
  booted : List Nat := []
  key : List Nat := []
  /-- Steps 1 to 5 of the boot sequence have ended, and link training comes next (Table 21.1). -/
  linkNext : Bool := false
  /-- In the recovery state: the flash has been rewritten. In a reset that began there without that: the failing step and its
  cause (R432). -/
  rewritten : Bool := false
  recov : Option (Nat × Nat) := none
  /-- Writes that came in this cycle, with READY not set (R433); SPDM requests that came during a reset (R427). -/
  early : List Turn := []
  spdmq : List Turn := []
  plim : Nat := 1300
  avg : Nat := 0
  /-- Power readings of the last 10 ms, newest first: cycle and watts; the cycle since which the power exceeds PLIM (R437). -/
  readings : List (Nat × Nat) := []
  overSince : Option Nat := none
  temp : Nat := 0
  /-- Cycle at which the thermal limit raised the start delay last (R439). -/
  heatAt : Option Nat := none
  delayPlace : Bool := false
  stopPlace : Bool := false
  /-- The device is in reset, or power is lost: the boot sequence comes next (R431). -/
  inReset : Bool := false
  lost : Bool := false
  /-- Cycle of the last device reset, from which the calendar of R226 runs. -/
  resetAt : Nat := 0
  /-- Flash holds a record of a failed link training (R416). -/
  linkFailed : Bool := false
  deriving DecidableEq, Repr, Inhabited

/-- The device, its agents' turn and the model's own bookkeeping. -/
structure State where
  cores : List Core := List.replicate 128 {}
  clusters : List Cluster := List.replicate 32 {}
  doms : List Stack := List.replicate 8 {}
  dies : List Die := List.replicate 4 {}
  /-- Device memory as seen at the homes (R222, R230), and as HBM holds it. -/
  home : Memory := []
  hbm : Memory := []
  sched : Sched := {}
  streams : List (Nat × Stream) := []
  host : HostSide := {}
  err : Err := {}
  xlt : Xlt := {}
  power : Power := {}
  /-- Cycles since reset; every timer is a view of it (R436). -/
  now : Nat := 0
  /-- MODEL: the core whose word executes. -/
  cur : Nat := 0
  /-- MODEL: turns already chosen, next first (assumption 1). -/
  agenda : List Turn := []
  /-- MODEL: counter that the open choices are drawn at (assumption 1). -/
  free : Nat := 0
  /-- MODEL: bit errors waiting to be consumed (R387). -/
  upsets : List Upset := []
  deriving DecidableEq, Repr, Inhabited

/-- Right after the boot sequence has reached READY (R431, assumption 2). -/
def State.reset : State := {}

/-- Why a step stops with a fault of the model. A fault of the device is no stop: it is a next state. -/
inductive Fault where
  /-- Raised by step when the chosen turn names a core above 127, which the device does not have (R15).
  Safe: no claim about the device's cores rests on such a turn. -/
  | noSuchCore (n : Nat)
  deriving DecidableEq, Repr

/-- Why a step is refused. -/
inductive Refusal where
  /-- Raised by exec for an instruction without a meaning yet. Safe: nothing is claimed. -/
  | notModelled (mnemonic : String)
  deriving DecidableEq, Repr

end Sys2Proof.Machine
end

