-- ==== Sys2Proof/Machine/Bits.lean ====
section
/-! DEFINITION. Bit fields, lanes, byte order and list updates (spec/00_scope.md R3: little-endian). -/

namespace Sys2Proof.Machine

/-- Bits lo to lo + w - 1 of x. -/
def fld (x lo w : Nat) : Nat := x / 2 ^ lo % 2 ^ w

/-- Bit i of x. -/
def bit (x i : Nat) : Bool := x / 2 ^ i % 2 == 1

/-- x with bits lo to lo + w - 1 replaced by v. -/
def setFld (x lo w v : Nat) : Nat :=
  x - fld x lo w * 2 ^ lo + v % 2 ^ w * 2 ^ lo

/-- A Bool as 0 or 1. -/
def b2n (b : Bool) : Nat := if b then 1 else 0

/-- Lane i of width w. -/
def lane (w i x : Nat) : Nat := x / 2 ^ (w * i) % 2 ^ w

/-- The first n lanes of width w, lowest first. -/
def lanesOf (w : Nat) : Nat → Nat → List Nat
  | 0, _ => []
  | n + 1, x => x % 2 ^ w :: lanesOf w n (x / 2 ^ w)

/-- The number whose lanes of width w are given, lowest first. -/
def ofLanes (w : Nat) : List Nat → Nat
  | [] => 0
  | a :: l => a % 2 ^ w + 2 ^ w * ofLanes w l

/-- n bytes of x, lowest first (R3). -/
def bytesLE (n x : Nat) : List Byte := (lanesOf 8 n x).map (BitVec.ofNat 8)

/-- The number a list of bytes holds, lowest first (R3). -/
def natLE : List Byte → Nat
  | [] => 0
  | b :: l => b.toNat + 256 * natLE l

/-- The signed value of a 16-, 32- or 64-bit field. -/
def sgn (w x : Nat) : Int := sextInt w x

/-- Element i of a list, or d beyond its end. -/
def lget {α : Type} (l : List α) (i : Nat) (d : α) : α := l.getD i d

/-- A list with element i changed by f. -/
def lmod {α : Type} : List α → Nat → (α → α) → List α
  | [], _, _ => []
  | a :: l, 0, f => f a :: l
  | a :: l, i + 1, f => a :: lmod l i f

/-- Key i of an association list. -/
def aget {α : Type} (l : List (Nat × α)) (i : Nat) : Option α := (l.find? (fun p => p.1 == i)).map Prod.snd

/-- An association list with key i set. -/
def aset {α : Type} (l : List (Nat × α)) (i : Nat) (a : α) : List (Nat × α) :=
  (i, a) :: l.filter (fun p => p.1 != i)

/-- An association list without key i. -/
def adel {α : Type} (l : List (Nat × α)) (i : Nat) : List (Nat × α) := l.filter (fun p => p.1 != i)

/-- A list without element i. -/
def ldel {α : Type} (l : List α) (i : Nat) : List α := l.eraseIdx i

/-- The position of the first element that satisfies p. -/
def lfind {α : Type} (p : α → Bool) : List α → Option Nat
  | [] => none
  | a :: l => if p a then some 0 else (lfind p l).map (· + 1)

/-- Insertion into a list kept rising by a key. -/
def linsert {α : Type} (key : α → Nat) (a : α) : List α → List α
  | [] => [a]
  | b :: l => if key a < key b then a :: b :: l else b :: linsert key a l

/-- A list in rising order of a key, equal keys in their old order. -/
def lsort {α : Type} (key : α → Nat) (l : List α) : List α :=
  l.foldl (fun acc a => linsert key a acc) []

/-- Number of leading zero bits of a w-bit code. -/
def clz (w x : Nat) : Nat := if x = 0 then w else w - 1 - Nat.log2 x

/-- Number of one bits of a w-bit code. -/
def popc : Nat → Nat → Nat
  | 0, _ => 0
  | w + 1, x => x % 2 + popc w (x / 2)

/-- Ceiling of a quotient. -/
def cdiv (a b : Nat) : Nat := (a + b - 1) / b

/-- The saturated value of a counter field. -/
def satAdd (lim a b : Nat) : Nat := min lim (a + b)

/-- Address of operand n of a nest of counts and strides, from its base (R146, R252). -/
def nestAt : List Nat → List Int → Nat → Int
  | c :: cs, d :: ds, n => ((n % c : Nat) : Int) * d + nestAt cs ds (n / c)
  | _, _, _ => 0

/-- 2 to the power w minus 1. -/
def ones (w : Nat) : Nat := 2 ^ w - 1

end Sys2Proof.Machine
end

