-- ==== Sys2Proof/Machine/Num.lean ====
section
/-! DEFINITION. Number formats, rounding, quantization and the exact arithmetic that all units share
(spec/02_number_formats.md). A value is exact: a signed dyadic number, an infinity or NaN. -/

namespace Sys2Proof.Machine

/-- An exact value: minus one to the sign times m times 2 to the e, or a special value. -/
inductive FVal where
  | nan
  | inf (neg : Bool)
  | fin (neg : Bool) (m : Nat) (e : Int)
  deriving DecidableEq, Repr, Inhabited

/-- Number types: integers of a width, floating-point formats, and the n4 types by their N4T code. -/
inductive NTy where
  | int (w : Nat) (signed : Bool)
  | fp32 | bf16 | fp16 | e4m3 | e5m2
  | n4 (t : Nat)
  deriving DecidableEq, Repr, Inhabited

/-- Flag bits of Table 2.6. -/
def fINV : Nat := 1
def fOVF : Nat := 2
def fUNF : Nat := 4
def fINX : Nat := 8
def fDZE : Nat := 16
def fSAT : Nat := 32

/-- Width in bits of a code. -/
def NTy.width : NTy → Nat
  | .int w _ => w
  | .fp32 => 32
  | .bf16 | .fp16 => 16
  | .e4m3 | .e5m2 => 8
  | .n4 _ => 4

/-- Exponent bits, fraction bits and bias (Table 2.1). -/
def NTy.layout : NTy → Nat × Nat × Nat
  | .fp32 => (8, 23, 127)
  | .bf16 => (8, 7, 127)
  | .fp16 => (5, 10, 15)
  | .e4m3 => (4, 3, 7)
  | .e5m2 => (5, 2, 15)
  | _ => (0, 0, 0)

/-- Floating-point formats. -/
def NTy.isFloat : NTy → Bool
  | .int _ _ | .n4 _ => false
  | _ => true

/-- The canonical NaN (Table 2.1, R28); 0 for other types. -/
def NTy.canonNaN : NTy → Nat
  | .fp32 => 0x7FC00000
  | .bf16 => 0x7FC0
  | .fp16 => 0x7E00
  | .e4m3 => 0x7F
  | .e5m2 => 0x7E
  | _ => 0

/-- Greatest finite magnitude code of a floating-point format (Table 2.1). -/
def NTy.maxMag : NTy → Nat
  | .fp32 => 0x7F7FFFFF
  | .bf16 => 0x7F7F
  | .fp16 => 0x7BFF
  | .e4m3 => 0x7E
  | .e5m2 => 0x7B
  | _ => 0

/-- Type of a format-word, tile or queue type code (Tables 5.2, 7.2); n4 takes its type from a scale word. -/
def NTy.ofCode (n4t : Nat) : Nat → NTy
  | 0 => .int 8 true
  | 1 => .int 8 false
  | 2 => .e4m3
  | 3 => .e5m2
  | 4 => .bf16
  | 5 => .fp16
  | 6 => .n4 n4t
  | 9 => .int 16 true
  | 10 => .int 32 true
  | _ => .fp32

/-- Magnitudes of the n4 types E2M1, POW and HYB, in eighths, by magnitude field (Table 2.2). -/
def n4Grid : Nat → List Nat
  | 1 => [0, 4, 8, 12, 16, 24, 32, 48]
  | 2 => [0, 1, 2, 4, 8, 16, 32, 64]
  | _ => [0, 8, 16, 24, 32, 48, 64, 96]

/-- The value of a code (R26, R29, R30). -/
def NTy.value (t : NTy) (c : Nat) : FVal :=
  match t with
  | .int w sg =>
    let i := if sg then sextInt w c else ((c % 2 ^ w : Nat) : Int)
    .fin (decide (i < 0)) i.natAbs 0
  | .n4 k =>
    if k = 0 then
      let i := sextInt 4 c
      .fin (decide (i < 0)) i.natAbs 0
    else .fin (bit c 3) (lget (n4Grid k) (c % 8) 0) (-3)
  | t =>
    let (eb, mb, bias) := t.layout
    let neg := bit c (eb + mb)
    let ex := fld c mb eb
    let fr := fld c 0 mb
    let special := ex = 2 ^ eb - 1
    if t = .e4m3 then
      if special ∧ fr = 7 then .nan
      else if ex = 0 then .fin neg fr (1 - (bias : Int) - mb)
      else .fin neg (2 ^ mb + fr) ((ex : Int) - bias - mb)
    else if special then (if fr = 0 then .inf neg else .nan)
    else if ex = 0 then .fin neg fr (1 - (bias : Int) - mb)
    else .fin neg (2 ^ mb + fr) ((ex : Int) - bias - mb)

/-- An integer n + r/d, r less than d, rounded in a mode; odd says whether n counts as odd (R34, R36). -/
def roundAt (m : Rnd) (neg : Bool) (n r d : Nat) (odd : Bool) : Nat :=
  if r = 0 then n else
  match m with
  | .rne => if 2 * r > d ∨ (2 * r = d ∧ odd = true) then n + 1 else n
  | .rtz => n
  | .rdn => if neg then n + 1 else n
  | .rup => if neg then n else n + 1

/-- floor(log2(num/den)) for positive num and den. -/
def ilog2 (num den : Nat) : Int :=
  let e : Int := (Nat.log2 num : Int) - Nat.log2 den
  let below := if 0 ≤ e then num < den * 2 ^ e.toNat else num * 2 ^ (-e).toNat < den
  if below then e - 1 else e

/-- A positive or zero rational num/den with a sign rounded into a floating-point type (R35 rules 2, 3). A
saturating type raises SAT for every value above its largest finite one, as Example 2.2 has it (assumption 6). -/
def rndFloat (neg : Bool) (num den : Nat) (t : NTy) (m : Rnd) (esat : Bool) : Nat × Nat :=
  let (eb, mb, bias) := t.layout
  let sign := if neg then 2 ^ (eb + mb) else 0
  if num = 0 then (sign, 0) else
  let emin : Int := 1 - (bias : Int)
  let ex := max (ilog2 num den) emin
  let q := ex - mb
  let nn := if q < 0 then num * 2 ^ (-q).toNat else num
  let dd := if q < 0 then den else den * 2 ^ q.toNat
  let n0 := nn / dd
  let r := nn % dd
  let n := roundAt m neg n0 r dd (n0 % 2 == 1)
  let mag := (ex - emin).toNat * 2 ^ mb + n
  if t.maxMag < mag then
    if t = .e4m3 ∨ (t = .e5m2 ∧ esat = true) then (sign + t.maxMag, fSAT + fINX)
    else
      let toInf := match m with
        | .rne => true
        | .rtz => false
        | .rdn => neg
        | .rup => !neg
      (sign + (if toInf then (2 ^ eb - 1) * 2 ^ mb else t.maxMag), fOVF + fINX)
  else
    let inx := r != 0
    let tiny := decide (ilog2 num den < emin)
    let satInf := (t == .e4m3 || (t == .e5m2 && esat)) && mag == t.maxMag && inx && decide (n = n0)
    (sign + mag, (if inx then fINX else 0) + (if inx && tiny && mag != 0 then fUNF else 0)
      + (if satInf then fSAT else 0))

/-- A rational rounded into an integer type (R35 rule 4). -/
def rndInt (neg : Bool) (num den : Nat) (w : Nat) (signed : Bool) (m : Rnd) : Nat × Nat :=
  let hi := if signed then 2 ^ (w - 1) - 1 else 2 ^ w - 1
  let lo := if signed then 2 ^ (w - 1) else 0
  if neg = false ∧ num > hi * den then (hi, fSAT + fINX)
  else if neg = true ∧ num > lo * den then (wrapInt w (-(lo : Int)), fSAT + fINX)
  else
    let n := roundAt m neg (num / den) (num % den) den (num / den % 2 == 1)
    (wrapInt w (if neg then -(n : Int) else n), if num % den = 0 then 0 else fINX)

/-- Position of the greatest grid entry not above x/d. -/
def gridFloor (x d : Nat) : List Nat → Nat → Nat
  | [], i => i - 1
  | g :: l, i => if g * d ≤ x then gridFloor x d l (i + 1) else i - 1

/-- A rational rounded into E2M1, POW or HYB (R35 rule 4, R36, R37). -/
def rndGrid (neg : Bool) (num den : Nat) (k : Nat) (m : Rnd) : Nat × Nat :=
  let g := n4Grid k
  let x := num * 8
  if x > lget g 7 0 * den then (7 + (if neg then 8 else 0), fSAT + fINX) else
  let i := gridFloor x den g 0
  let lo := lget g i 0 * den
  let hi := lget g (i + 1) 0 * den
  let n := if x = lo then i else roundAt m neg i (x - lo) (hi - lo) (i % 2 == 1)
  ((if neg ∧ n ≠ 0 then 8 + n else n), if x = lo then 0 else fINX)

/-- rnd of R35 on a finite rational. -/
def rndQ (neg : Bool) (num den : Nat) (t : NTy) (m : Rnd) (esat : Bool) : Nat × Nat :=
  match t with
  | .int w sg => rndInt neg num den w sg m
  | .n4 k => if k = 0 then rndInt neg num den 4 true m else rndGrid neg num den k m
  | t => rndFloat neg num den t m esat

/-- Numerator of a dyadic number. -/
def dyNum (m : Nat) (e : Int) : Nat := if 0 ≤ e then m * 2 ^ e.toNat else m
/-- Denominator of a dyadic number. -/
def dyDen (e : Int) : Nat := if 0 ≤ e then 1 else 2 ^ (-e).toNat

/-- rnd of R35: the code and the flags. -/
def rnd (y : FVal) (t : NTy) (m : Rnd) (esat : Bool) : Nat × Nat :=
  match y with
  | .nan => (t.canonNaN, if t.isFloat then 0 else fINV)
  | .inf neg =>
    match t with
    | .int w sg =>
      ((if neg then wrapInt w (if sg then -(2 ^ (w - 1) : Int) else 0)
        else if sg then 2 ^ (w - 1) - 1 else 2 ^ w - 1), fINV)
    | .n4 k => ((if k = 0 then (if neg then 8 else 7) else (if neg then 15 else 7)), fINV)
    | .e4m3 => ((if neg then 0xFE else 0x7E), fSAT)
    | t =>
      let (eb, mb, _) := t.layout
      ((if neg then 2 ^ (eb + mb) else 0) + (2 ^ eb - 1) * 2 ^ mb, 0)
  | .fin neg n e => rndQ neg (dyNum n e) (dyDen e) t m esat

/-- rne32 of R38: an exact zero from a sum gives +0. -/
def rne32 (y : FVal) : Nat × Nat :=
  match y with
  | .fin _ 0 _ => (0, 0)
  | y => rnd y .fp32 .rne false

/-- The signed integer m times 2 to (e - lo) of a finite value. -/
def scaled (neg : Bool) (m : Nat) (e lo : Int) : Int :=
  let x : Int := (m * 2 ^ (e - lo).toNat : Nat)
  if neg then -x else x

/-- Exact sum of two finite values; an exact zero is +0 unless both are -0. -/
def addFin (an : Bool) (am : Nat) (ae : Int) (bn : Bool) (bm : Nat) (be : Int) : FVal :=
  let lo := min ae be
  let x := scaled an am ae lo + scaled bn bm be lo
  .fin (if x = 0 then an && bn && am == 0 && bm == 0 else decide (x < 0)) x.natAbs lo

/-- Exact sum as in IEEE 754; opposite infinities raise INV. -/
def FVal.add (a b : FVal) : FVal × Nat :=
  match a, b with
  | .nan, _ => (.nan, 0)
  | _, .nan => (.nan, 0)
  | .inf x, .inf y => if x = y then (.inf x, 0) else (.nan, fINV)
  | .inf x, .fin _ _ _ => (.inf x, 0)
  | .fin _ _ _, .inf y => (.inf y, 0)
  | .fin an am ae, .fin bn bm be => (addFin an am ae bn bm be, 0)

/-- The negative. -/
def FVal.neg : FVal → FVal
  | .nan => .nan
  | .inf n => .inf (!n)
  | .fin n m e => .fin (!n) m e

/-- The magnitude. -/
def FVal.abs : FVal → FVal
  | .nan => .nan
  | .inf _ => .inf false
  | .fin _ m e => .fin false m e

/-- Zero of either sign. -/
def FVal.isZero : FVal → Bool
  | .fin _ 0 _ => true
  | _ => false

/-- NaN. -/
def FVal.isNaN : FVal → Bool
  | .nan => true
  | _ => false

/-- Exact product; zero times infinity raises INV. -/
def FVal.mul (a b : FVal) : FVal × Nat :=
  match a, b with
  | .nan, _ => (.nan, 0)
  | _, .nan => (.nan, 0)
  | .inf x, .inf y => (.inf (x != y), 0)
  | .inf x, .fin n m _ => if m = 0 then (.nan, fINV) else (.inf (x != n), 0)
  | .fin n m _, .inf y => if m = 0 then (.nan, fINV) else (.inf (n != y), 0)
  | .fin an am ae, .fin bn bm be => (.fin (an != bn) (am * bm) (ae + be), 0)

/-- Exact less-than; NaN compares false. -/
def FVal.lt (a b : FVal) : Bool :=
  match a, b with
  | .nan, _ => false
  | _, .nan => false
  | .inf x, .inf y => x && !y
  | .inf x, .fin _ _ _ => x
  | .fin _ _ _, .inf y => !y
  | .fin an am ae, .fin bn bm be =>
    let lo := min ae be
    decide (scaled an am ae lo < scaled bn bm be lo)

/-- Exact equality; -0 equals +0 and NaN equals nothing. -/
def FVal.eq (a b : FVal) : Bool :=
  match a, b with
  | .nan, _ => false
  | _, .nan => false
  | .inf x, .inf y => x == y
  | .fin an am ae, .fin bn bm be =>
    let lo := min ae be
    scaled an am ae lo == scaled bn bm be lo
  | _, _ => false

/-- An integer as a value. -/
def FVal.ofInt (i : Int) : FVal := .fin (decide (i < 0)) i.natAbs 0

/-- Fields of a block scale word (Table 2.3): N4T, E, M. -/
def swN4T (sw : Nat) : Nat := fld sw 14 2
def swE (sw : Nat) : Nat := fld sw 6 8
def swM (sw : Nat) : Nat := fld sw 0 6

/-- The value of a scale word (R32). -/
def swScale (sw : Nat) : FVal := .fin false (64 + swM sw) ((swE sw : Int) - 133)

/-- Element type of a code under a scale word: n4 takes its type from it (R33). -/
def elemTy (code : Nat) (sw : Option Nat) : NTy := NTy.ofCode (swN4T (sw.getD 0)) code

/-- quantize of R39: code and flags; esat is the .sat of an e5m2 target. -/
def quantize (x : FVal) (t : NTy) (sw : Option Nat) (esat : Bool) : Nat × Nat :=
  match sw with
  | none => rnd x t .rne esat
  | some sw =>
    if swE sw = 0 ∨ swE sw = 255 then (0, 0) else
    match x with
    | .fin n m e =>
      let e' := e - ((swE sw : Int) - 133)
      rndQ n (dyNum m e') (dyDen e' * (64 + swM sw)) t .rne esat
    | x => rnd x t .rne esat

/-- dequant_exact of R45: value times scale, unrounded. -/
def dequantExact (c : Nat) (t : NTy) (sw : Option Nat) : FVal :=
  match sw with
  | none => t.value c
  | some sw =>
    if swE sw = 0 then .fin false 0 0
    else if swE sw = 255 then .nan
    else ((t.value c).mul (swScale sw)).1

/-- dequantize of R40: fp32 code and flags. -/
def dequantize (c : Nat) (t : NTy) (sw : Option Nat) : Nat × Nat :=
  match dequantExact c t sw with
  | .nan => (NTy.fp32.canonNaN, 0)
  | v => rnd v .fp32 .rne false

/-- Block sum of R45 over pairs of exact values; none of the products is rounded. -/
def blockSum : List (FVal × FVal) → FVal → FVal × Nat
  | [], acc => (acc, 0)
  | (x, y) :: l, acc =>
    if x.isNaN || y.isNaN then (.nan, 0) else
    match x.mul y with
    | (.nan, _) => (.nan, fINV)
    | (p, _) =>
      match acc.add p with
      | (.nan, _) => (.nan, fINV)
      | (s, _) => blockSum l s

/-- accumulate of R45 into an fp32 accumulator code. -/
def accumulate (acc : Nat) (s : FVal) : Nat × Nat :=
  match NTy.fp32.value acc, s with
  | .nan, _ => (0x7FC00000, 0)
  | _, .nan => (0x7FC00000, 0)
  | a, s =>
    match a.add s with
    | (.nan, f) => (0x7FC00000, f)
    | (y, _) => rne32 y

/-- FADD32 of R47 on fp32 codes; no flag. -/
def fadd32 (old v : Nat) : Nat :=
  let a := NTy.fp32.value old
  let b := NTy.fp32.value v
  if old % 2 ^ 32 = 0x80000000 ∧ v % 2 ^ 32 = 0x80000000 then 0x80000000
  else match a.add b with
    | (.nan, _) => 0x7FC00000
    | (y, _) => (rne32 y).1

/-- Conversion of a code between types (R42): code and flags. -/
def convert (c : Nat) (src dst : NTy) (m : Rnd) (esat : Bool) : Nat × Nat := rnd (src.value c) dst m esat

end Sys2Proof.Machine
end

