-- ==== Sys2Proof/Machine/Mem.lean ====
section
/-! DEFINITION. Byte memories in canonical form, runs of bytes, and the bytes of cached lines (R222). -/

namespace Sys2Proof.Machine

/-- The canonical form: addresses strictly rising, no byte equal to 0, which an unlisted address reads as. -/
def Memory.wf : Memory → Bool
  | [] => true
  | [c] => c.2 != 0#8
  | c :: d :: m => c.2 != 0#8 && decide (c.1 < d.1) && Memory.wf (d :: m)

/-- The byte at an address. -/
def mget : Memory → Nat → Byte
  | [], _ => 0#8
  | c :: m, a => if c.1 = a then c.2 else mget m a

/-- The entry of a byte: none for 0. -/
def mcell (a : Nat) (b : Byte) : Memory := if b = 0#8 then [] else [(a, b)]

/-- One byte written. -/
def mset : Memory → Nat → Byte → Memory
  | [], a, b => mcell a b
  | c :: m, a, b =>
    if a < c.1 then mcell a b ++ c :: m
    else if a = c.1 then mcell a b ++ m
    else c :: mset m a b

/-- The entries of a run of bytes. -/
def mrun : Nat → List Byte → Memory
  | _, [] => []
  | a, b :: l => mcell a b ++ mrun (a + 1) l

/-- Bytes written from an address on. -/
def mputs (m : Memory) (a : Nat) (l : List Byte) : Memory :=
  m.filter (fun c => decide (c.1 < a)) ++ mrun a l ++ m.filter (fun c => decide (a + l.length ≤ c.1))

/-- The entries of a range of n bytes. -/
def mpart (m : Memory) (a n : Nat) : Memory := m.filter (fun c => decide (a ≤ c.1) && decide (c.1 < a + n))

/-- n bytes from an address on. -/
def mgets (m : Memory) (a n : Nat) : List Byte :=
  let p := mpart m a n
  (List.range n).map (fun i => mget p (a + i))

/-- An n-byte number at an address, little-endian (R3). -/
def mnat (m : Memory) (a n : Nat) : Nat := natLE (mgets m a n)

/-- An n-byte number stored at an address. -/
def mputn (m : Memory) (a n x : Nat) : Memory := mputs m a (bytesLE n x)

/-- Zeros written to every address from lo to hi - 1. -/
def mclear (m : Memory) (lo hi : Nat) : Memory := m.filter (fun c => c.1 < lo || hi ≤ c.1)

/-- Byte i of a 128-byte line. -/
def lineByte (v : Vec) (i : Nat) : Byte := (v.extractLsb' (8 * i) 8)

/-- A 128-byte line with byte i replaced. -/
def lineSet (v : Vec) (i : Nat) (b : Byte) : Vec :=
  BitVec.ofNat 1024 (setFld v.toNat (8 * i) 8 b.toNat)

/-- The address of the line that holds an address. -/
def lineKey (a : Nat) : Nat := a / 128 * 128

/-- Dirty bytes of a line written to a memory at the line's key. -/
def lineDrain (m : Memory) (l : Line) : Memory :=
  mputs m l.key ((mgets m l.key 128).mapIdx (fun i b => if l.dirty.getLsbD i then lineByte l.data i else b))

/-- The line with a key. -/
def lineFind (ls : List Line) (key : Nat) : Option Line := ls.find? (fun l => l.key == key)

/-- A line put in place of the one with its key; a new line goes to the end. -/
def linePut (ls : List Line) (l : Line) : List Line :=
  if ls.any (fun x => x.key == l.key) then ls.map (fun x => if x.key == l.key then l else x) else ls ++ [l]

/-- Fetched bytes merged under the bytes already dirty; the line counts as filled under the class of the fill (R222,
R232). -/
def lineFill (old : Option Line) (key cls : Nat) (bytes : Vec) : Line :=
  match old with
  | none => { key := key, cls := cls, valid := BitVec.allOnes 128, dirty := 0#128, data := bytes }
  | some l =>
    { l with cls := cls
             valid := BitVec.allOnes 128
             data := BitVec.ofNat 1024 (ofLanes 8 ((List.range 128).map (fun i =>
               if l.dirty.getLsbD i then (lineByte l.data i).toNat else (lineByte bytes i).toNat))) }

/-- A byte stored into a line. -/
def lineStore (l : Line) (i : Nat) (b : Byte) : Line :=
  { l with data := lineSet l.data i b
           valid := l.valid ||| (1#128 <<< i)
           dirty := l.dirty ||| (1#128 <<< i) }

/-- Clean bytes of a line dropped; nothing is left of a line without dirty bytes (R232). -/
def lineInval (l : Line) : Option Line :=
  if l.dirty = 0#128 then none else some { l with valid := l.dirty }

end Sys2Proof.Machine
end

