-- ==== Sys2Proof/Machine/Reg.lean ====
section
/-! DEFINITION. Named access to the parts of the state, unit numbers (R16), and reads and writes of the registers of
Table 5.1 under the latency rules R101 and R102. -/

namespace Sys2Proof.Machine

/-- Why a word does not complete: it stalls and leaves the state as it was, or with a mark of what it waits for,
or it raises a fault of the device (R378). -/
inductive Exc where
  | stall
  /-- Stalled in a state that records its progress (WAITA, TALLOC, MLEASE, COMMIT, drains). -/
  | hold (s : State)
  /-- Stalled on a page walk to be asked for (R410). -/
  | miss (r : WalkReq)
  /-- A first write of an extent of a buffer, stalled on other gangs' extents or pins (R241). -/
  | waits (buf ext : Nat)
  /-- The cycle of R241: this gang is discarded and re-queued. -/
  | cycle (victim : Nat)
  | fault (f : FInfo)
  /-- A fault of a command that has already written: the bytes written stay (R267, R268). -/
  | partly (s : State) (f : FInfo)
  deriving Repr

/-- What a meaning computes before it is finished: a value, a stall or a fault. -/
abbrev Res (α : Type) := Except Exc α

/-- A fault code raised with nothing but the code. -/
def raiseF {α : Type} (c : FCode) : Res α := .error (.fault { code := c })

/-- A fault unless a condition holds. -/
def need (b : Bool) (c : FCode) : Res Unit := if b then .ok () else raiseF c

/-- A fault with an address unless a condition holds. -/
def needAt (b : Bool) (c : FCode) (a : Nat) : Res Unit :=
  if b then .ok () else .error (.fault { code := c, addr := a })

/-- A stall unless a condition holds. -/
def wait (b : Bool) : Res Unit := if b then .ok () else .error .stall

/-- Cluster of a core (R16). -/
def clusterOf (k : Nat) : Nat := k / 4
/-- Column of a cluster (R16). -/
def colOf (n : Nat) : Nat := n / 4
/-- Row of a cluster (R16). -/
def rowOf (n : Nat) : Nat := n % 4
/-- Die of a cluster (R16). -/
def dieOf (n : Nat) : Nat := colOf n / 2
/-- Stack domain of a cluster (R16). -/
def stackOf (n : Nat) : Nat := 2 * dieOf n + rowOf n / 2
/-- Number of an engine, as R384 numbers them. -/
def engNo : Eng → Nat
  | .s => 0
  | .v => 1
  | .m => 2
  | .c => 3

/-- The four engines. -/
def engines : List Eng := [.s, .v, .m, .c]

/-- A core. -/
def State.core (s : State) (k : Nat) : Core := lget s.cores k {}
/-- A core changed. -/
def State.modCore (s : State) (k : Nat) (f : Core → Core) : State := { s with cores := lmod s.cores k f }
/-- A cluster. -/
def State.cluster (s : State) (n : Nat) : Cluster := lget s.clusters n {}
/-- A cluster changed. -/
def State.modCluster (s : State) (n : Nat) (f : Cluster → Cluster) : State :=
  { s with clusters := lmod s.clusters n f }
/-- A Girder. -/
def State.girder (s : State) (n : Nat) : Girder := (s.cluster n).gir
/-- A Girder changed. -/
def State.modGirder (s : State) (n : Nat) (f : Girder → Girder) : State :=
  s.modCluster n (fun c => { c with gir := f c.gir })
/-- A stack domain. -/
def State.stack (s : State) (n : Nat) : Stack := lget s.doms n {}
/-- A stack domain changed. -/
def State.modStack (s : State) (n : Nat) (f : Stack → Stack) : State := { s with doms := lmod s.doms n f }
/-- A die. -/
def State.die (s : State) (n : Nat) : Die := lget s.dies n {}
/-- A die changed. -/
def State.modDie (s : State) (n : Nat) (f : Die → Die) : State := { s with dies := lmod s.dies n f }
/-- A scheduler context. -/
def State.ctx (s : State) (c : Nat) : Ctx := lget s.sched.ctxs c {}
/-- A scheduler context changed. -/
def State.modCtx (s : State) (c : Nat) (f : Ctx → Ctx) : State :=
  { s with sched := { s.sched with ctxs := lmod s.sched.ctxs c f } }
/-- The scheduler changed. -/
def State.modSched (s : State) (f : Sched → Sched) : State := { s with sched := f s.sched }
/-- Error reporting changed. -/
def State.modErr (s : State) (f : Err → Err) : State := { s with err := f s.err }
/-- The host side changed. -/
def State.modHost (s : State) (f : HostSide → HostSide) : State := { s with host := f s.host }
/-- A stream, if it exists. -/
def State.stream (s : State) (i : Nat) : Option Stream := aget s.streams i
/-- A stream changed. -/
def State.modStream (s : State) (i : Nat) (f : Stream → Stream) : State :=
  { s with streams := s.streams.map (fun p => if p.1 = i then (p.1, f p.2) else p) }
/-- A gang, while it exists. -/
def State.gang (s : State) (g : Nat) : Option Gang :=
  if g = 0 then s.err.pgang else s.sched.gangs.find? (fun x => x.id == g)
/-- Every gang that runs, the Parapet's (number 0) included. -/
def State.allGangs (s : State) : List Gang := s.err.pgang.toList ++ s.sched.gangs
/-- A gang changed. -/
def State.modGang (s : State) (g : Nat) (f : Gang → Gang) : State :=
  if g = 0 then s.modErr (fun e => { e with pgang := e.pgang.map f })
  else s.modSched (fun d => { d with gangs := d.gangs.map (fun x => if x.id = g then f x else x) })

/-- The strand that runs on a core: the Parapet context's while it runs (R14). -/
def Core.strand (c : Core) : Strand := if c.inPar then c.par else c.ord
/-- That strand changed. -/
def Core.modStrand (c : Core) (f : Strand → Strand) : Core :=
  if c.inPar then { c with par := f c.par } else { c with ord := f c.ord }
/-- The strand of a core. -/
def State.strand (s : State) (k : Nat) : Strand := (s.core k).strand
/-- The strand of a core changed. -/
def State.modStrand (s : State) (k : Nat) (f : Strand → Strand) : State := s.modCore k (fun c => c.modStrand f)
/-- The strand whose word executes. -/
def State.st (s : State) : Strand := s.strand s.cur
/-- That strand changed. -/
def State.modSt (s : State) (f : Strand → Strand) : State := s.modStrand s.cur f
/-- Its registers changed. -/
def State.modRegs (s : State) (f : Regs → Regs) : State := s.modSt (fun t => { t with regs := f t.regs })
/-- Its queues changed. -/
def State.modQs (s : State) (f : Queues → Queues) : State := s.modSt (fun t => { t with qs := f t.qs })

/-- A sequencer of a strand. -/
def Strand.eng (t : Strand) : Eng → EngSt
  | .s => t.es
  | .v => t.ev
  | .m => t.em
  | .c => t.ec
/-- A sequencer of a strand changed. -/
def Strand.modEng (t : Strand) (e : Eng) (f : EngSt → EngSt) : Strand :=
  match e with
  | .s => { t with es := f t.es }
  | .v => { t with ev := f t.ev }
  | .m => { t with em := f t.em }
  | .c => { t with ec := f t.ec }

/-- The number under which bit errors name the registers of the context that runs on a core: those of the Parapet context are
its own (R14, R387). -/
def State.regCtx (s : State) (k : Nat) : Nat := if (s.core k).inPar then k + 128 else k

/-- The image a strand runs, as resident in its core (R51, R365). -/
def State.image (s : State) (k : Nat) : Image :=
  ((s.core k).imem.find? (fun i => i.handle == (s.strand k).image)).getD {}
/-- The text of the strand on a core. -/
def State.text (s : State) (k : Nat) : List Nat := (s.image k).text

/-- The engine tag of a word (R50). -/
def tagOf (w : Nat) : Nat := w / 2 ^ 30 % 4

/-- Offset of the first own word at or after an offset, searching a text suffix. -/
def nextOwn (tag : Nat) : List Nat → Nat → Option Nat
  | [], _ => none
  | w :: l, off => if tagOf w = tag then some off else nextOwn tag l (off + 4)

/-- Offset of an engine's first own word at or after an offset (R23, R53). -/
def ownFrom (text : List Nat) (e : Eng) (off : Nat) : Option Nat :=
  nextOwn (engNo e) (text.drop (off / 4)) (off / 4 * 4)

/-- An engine other than S is idle once no own word lies ahead of it (R53). -/
def State.idle (s : State) (k : Nat) (e : Eng) : Bool :=
  e != .s && (ownFrom (s.text k) e ((s.strand k).eng e).pc).isNone

/-- S has issued COMMIT or HALT (R137). -/
def Strand.ended (t : Strand) : Bool := t.commit != .run || t.halted

/-- A word of V, M or C at a text offset lies beyond the COMMIT or HALT that waits (R80, R92, R368): the engine has no outcome
left to pop and no delay slot left to execute, so it follows the text that S followed to that word, and its own word lies past
it (assumption 47). -/
def Strand.beyond (t : Strand) (e : Eng) (off : Nat) : Bool :=
  t.commit == .drain && decide (t.commitPos < off) && (lget t.qs.oq (engNo e) []).isEmpty && (t.eng e).slots == 0

/-- The open choice of this step for a question (assumption 1): one bit. -/
def choice (s : State) (q : Nat) : Bool := Config.freeBits (s.free * 2 ^ 20 + q) % 2 == 1

/-- Free bits of this step for a question with more than two answers. -/
def State.pick (s : State) (q : Nat) : Nat := Config.freeBits (s.free * 2 ^ 20 + 2 ^ 19 + 2 ^ 18 + q)

/-- An error has struck a place whose values carry no check (R388). -/
def State.struck (s : State) (p : UpsetPlace) : Bool := s.upsets.any (fun u => u.place == p)

/-- That error has shown itself. -/
def State.spent (s : State) (p : UpsetPlace) : State :=
  if s.upsets.isEmpty then s else { s with upsets := s.upsets.filter (fun u => u.place != p) }

/-- A value from a place whose errors nothing detects: any value, once an error has struck it (R388). -/
def State.wrongNat (s : State) (p : UpsetPlace) (v : Nat) : Nat := if s.struck p then s.pick 6 else v

/-- The same for bytes from place i on of what the place produces. -/
def State.wrongBytes (s : State) (p : UpsetPlace) (i : Nat) (l : List Byte) : List Byte :=
  if s.struck p then l.mapIdx (fun j _ => BitVec.ofNat 8 (s.pick (8 + i + j))) else l

/-- A result that a reader of engine e may find not yet written (R101, R104). -/
def Hazard.late (h : Hazard) (now : Nat) (e : Eng) : Bool :=
  if h.eng == e then decide (now < h.due) else !h.known.contains e && decide (now < h.far)

/-- Bits of a value replaced under a mask. -/
def mix (old new mask : Nat) : Nat := (old - (old &&& mask)) + (new &&& mask)

/-- A register as a reader sees it, from the results in flight for it, newest first, and the value they leave (R101): each
unit of the type that a result was written with is its old value or its new one, results land in their order (R102), and
the bits that a masked result leaves alone are those of the results before it. -/
def resolve (late : Hazard → Bool) (pick : Nat → Nat → Bool) (bits : Nat) : List Hazard → Nat → Nat → Nat
  | [], _, new => new
  | h :: hs, j, new =>
    if (h :: hs).all (fun x => !late x) then new else
    let under := resolve late pick bits hs (j + 1) h.old
    if late h = false then mix under new h.mask else
    let w := max 8 h.width
    ofLanes w ((List.range (bits / w)).map (fun i =>
      if pick i j then mix (lane w i under) (lane w i new) (lane w i h.mask) else lane w i under))

/-- The results in flight for one unit. -/
def hazards (t : Strand) (u : HzUnit) : List Hazard := t.hz.filter (fun h => h.unit == u)

/-- A register of n bits as a word of engine e finds it at its issue: the value its last writer leaves, or what R101 lets
a reader get before. -/
def State.resolved (s : State) (e : Eng) (u : HzUnit) (q bits cur : Nat) : Nat :=
  resolve (fun h => h.late s.now e) (fun i j => choice s (q + 16 * i + j)) bits (hazards s.st u) 0 cur

/-- The pending memory return of a destination, latest first, whose value is fixed (R118, R229). -/
def pendingRet (t : Strand) (d : RetDst) : Option Ret := (t.rets.filter (fun r => r.dst == d && r.src.isEmpty)).getLast?

/-- s[n] as an S word reads it at issue (R99, R101, R118). -/
def State.rdS (s : State) (n : Nat) : Dbl :=
  let t := s.st
  if n = 0 then 0#64 else
  let cur := BitVec.ofNat 64 (s.resolved .s (.s n) (16 * n) 64 (lget t.regs.s n 0#64).toNat)
  match pendingRet t (.s n) with
  | some r => if choice s (1024 + n) then BitVec.ofNat 64 r.val else cur
  | none => cur

/-- s[n] as landed. -/
def State.getS (s : State) (n : Nat) : Dbl := if n = 0 then 0#64 else lget s.st.regs.s n 0#64

/-- Later writes win over returns in flight (R102). -/
def supersede (d : RetDst) (m : Nat) (rs : List Ret) : List Ret :=
  rs.map (fun r => if r.dst == d then { r with mask := r.mask - (r.mask &&& m) } else r)

/-- A scalar register written at once; s0 discards it (R99). -/
def State.putS (s : State) (n : Nat) (v : Dbl) : State :=
  if n = 0 then s else
  s.modSt (fun t => { t with
    regs := { t.regs with s := t.regs.s.set n v }
    hz := t.hz.filter (fun h => h.unit != .s n)
    rets := t.rets.map (fun r => if r.dst == .s n then { r with dst := .none } else r) })

/-- A scalar register written by a bounded word (R71, R101). -/
def State.wrS (s : State) (n bound : Nat) (v : Dbl) : State :=
  if n = 0 then s else
  let old := (lget s.st.regs.s n 0#64).toNat
  s.modSt (fun t => { t with
    regs := { t.regs with s := t.regs.s.set n v }
    hz := { unit := .s n, old := old, width := 64, due := s.now + bound, mask := ones 64 } :: t.hz
    rets := t.rets.map (fun r => if r.dst == .s n then { r with dst := .none } else r) })

/-- Units of a return in flight that a reader may find landed (R102). -/
def landSome (s : State) (q bits : Nat) (r : Ret) (cur : Nat) : Nat :=
  let w := max 8 r.width
  ofLanes w ((List.range (bits / w)).map (fun i =>
    let m := lane w i r.mask
    if m != 0 && choice s (q + i) then (lane w i cur - (lane w i cur &&& m)) + (lane w i r.val &&& m)
    else lane w i cur))

/-- A destination's value with the returns in flight for it, oldest first (R102). -/
def withRets (s : State) (d : RetDst) (q bits cur : Nat) : Nat :=
  (s.st.rets.filter (fun r => r.dst == d && r.src.isEmpty)).foldl (fun v r => landSome s q bits r v) cur

/-- v[n] as a V word reads it. -/
def State.rdV (s : State) (n : Nat) : Vec :=
  BitVec.ofNat 1024 (withRets s (.v n) (2 ^ 19 + 4096 * n) 1024
    (s.resolved .v (.v n) (4096 * (n + 1)) 1024 (lget s.st.regs.v n 0#1024).toNat))

/-- v[n] written by a word with lane width w and a bound; mask gives the bits written. Its bound, and its place in the order of
the writes, hold for the whole register as if every lane were active (R98, R102). -/
def State.wrV (s : State) (n bound w mask : Nat) (v : Nat) : State :=
  let old := (lget s.st.regs.v n 0#1024).toNat
  let new := (old - (old &&& mask)) + (v &&& mask)
  s.modSt (fun t => { t with
    regs := { t.regs with v := t.regs.v.set n (BitVec.ofNat 1024 new) }
    hz := { unit := .v n, old := old, width := w, due := s.now + bound, mask := ones 1024, eng := .v } :: t.hz
    rets := supersede (.v n) (ones 1024) t.rets })

/-- t[n] as a word of engine e reads it. -/
def State.rdTBy (s : State) (e : Eng) (n : Nat) : Nat :=
  withRets s (.t n) (2 ^ 17 + 8192 * n) 65536 (s.resolved e (.t n) (2 ^ 18) 65536 (lget s.st.regs.t n 0#65536).toNat)

/-- t[n] as VTR reads it. -/
def State.rdT (s : State) (n : Nat) : Nat := s.rdTBy .v n

/-- t[n] as an M word reads it. -/
def State.rdTM (s : State) (n : Nat) : Nat := s.rdTBy .m n

/-- The bits of t[n] in which a write by engine e prevails: of two writes that nothing orders, either may prevail in an element
(R104). -/
def State.tileWins (s : State) (e : Eng) (n w mask : Nat) : Nat :=
  let clash := (hazards s.st (.t n)).foldl (fun m h => if h.eng != e && h.late s.now e then m ||| h.mask else m) 0
  if clash = 0 then mask else
  ofLanes w ((List.range (65536 / w)).map (fun i =>
    if lane w i clash ≠ 0 ∧ choice s (2 ^ 15 + i) = true then 0 else lane w i mask))

/-- What a write of t[n] by engine e leaves in the bits that it writes: its own value, or in an element that another engine's
write wins that one's (R104). -/
def State.tileMix (s : State) (e : Eng) (n w mask v : Nat) : Nat :=
  mix (lget s.st.regs.t n 0#65536).toNat v (s.tileWins e n w mask)

/-- t[n] written, with the result in flight that the write is for a reader (R101, R104). -/
def State.setT (s : State) (n v : Nat) (h : Hazard) (rets : List Ret) : State :=
  let old := (lget s.st.regs.t n 0#65536).toNat
  s.modSt (fun t => { t with
    regs := { t.regs with t := t.regs.t.set n (BitVec.ofNat 65536 (mix old v h.mask)) }
    hz := { h with old := old } :: t.hz
    rets := rets })

/-- Cycles for which V may still find the old elements of a tile that an M word has written (R104, assumption 33). -/
def tileSpan : Nat := 64

/-- Type code of a tile (R109). -/
def State.tileTy (s : State) (n : Nat) : Nat := lget s.st.regs.tt n 4

/-- Bits of an element of a tile type code (Table 5.2). -/
def codeBits (c : Nat) : Nat := if c < 4 then 8 else if c < 6 then 16 else 32

/-- t[n] written by an M word, which is interlocked: later M words find it written. -/
def State.putT (s : State) (n mask v : Nat) (was : Option Nat := none) : State :=
  let w := codeBits (s.tileTy n)
  s.setT n (s.tileMix .m n w mask v)
    { unit := .t n, old := 0, width := w, due := s.now, mask := mask, eng := .m, far := s.now + tileSpan, was := was }
    (supersede (.t n) mask s.st.rets)

/-- t[n] written by VTW with element width w and a bound. A TLD's return that no token orders before it may still land
(R104). -/
def State.wrT (s : State) (n bound w mask v : Nat) : State :=
  s.setT n (s.tileMix .v n w mask v)
    { unit := .t n, old := 0, width := w, due := s.now + bound, mask := mask, eng := .v, far := s.now + bound }
    (if choice s (2 ^ 16 + n) then s.st.rets else supersede (.t n) mask s.st.rets)

/-- A queue, a token or an event joins what engine p has done, or knows to be done, to what engine e does from now on
(R104, assumption 117). -/
def State.join (s : State) (e p : Eng) : State :=
  s.modSt (fun t => { t with hz := t.hz.map (fun h =>
    if (h.eng == p || h.known.contains p) && !h.known.contains e then { h with known := e :: h.known } else h) })

/-- Loads of an engine, of some classes, have performed: their values are fixed (R229). -/
def Strand.fixed (t : Strand) (e : Eng) (cls : Nat → Bool) : Strand :=
  { t with rets := t.rets.map (fun r => if r.eng == e && cls r.cls then { r with src := [] } else r) }

/-- A store of an engine in a class has not performed yet, or a VAMO has not, which every class of V is ordered with (R182,
R229). -/
def Strand.storing (t : Strand) (e : Eng) (cls : Option Nat) : Bool :=
  t.psts.any (fun p => p.eng == e && (match cls with
    | none => true
    | some c => p.cls == c)) || (e == .v && t.vamo.isSome)

/-- An effect held until the post-commit region (R370). -/
def Strand.hold (t : Strand) (at' : Nat) (h : Held) : Strand := { t with held := t.held ++ [h], heldAt := t.heldAt ++ [at'] }

/-- A condition bit (R86: read after every earlier S write). -/
def State.getC (s : State) (i : Nat) : Bool := s.st.regs.c.getLsbD i

/-- A condition bit written. -/
def State.putC (s : State) (i : Nat) (v : Bool) : State :=
  s.modRegs (fun r => { r with c := BitVec.ofNat 4 (setFld r.c.toNat i 1 (b2n v)) })

/-- A branch target register (R85). -/
def State.getB (s : State) (i : Nat) : Word := lget s.st.regs.b i 0#32

/-- A branch target register written. -/
def State.putB (s : State) (i : Nat) (v : Nat) : State :=
  s.modRegs (fun r => { r with b := r.b.set i (BitVec.ofNat 32 v) })

/-- The guard of an SA word holds (R56). -/
def State.guardOk (s : State) : Guard → Bool
  | .always => true
  | .cond c gs => s.getC c != (gs == 1)

/-- Count of a token. -/
def Strand.tokCount (t : Strand) (w : Nat) : Nat := lget t.regs.w w 0

/-- An engine noted in a set of engines, kept as the bits of their numbers. -/
def noteEng (e : Eng) (x : Nat) : Nat := x ||| 2 ^ engNo e

/-- The engines of the sets that a mask selects. -/
def engsOf (sets : List Nat) (m : Nat) : List Eng :=
  let all := sets.zipIdx.foldl (fun x p => if bit m p.2 then x ||| p.1 else x) 0
  engines.filter (fun e => bit all (engNo e))

/-- Events set by an engine or its command, which for the rest of the cycle no EVCLR clears (R112). -/
def Strand.setEvents (t : Strand) (by' : Eng) (m : BitVec 32) : Strand :=
  { t with regs := { t.regs with e := t.regs.e ||| m }, cyc := { t.cyc with evs := t.cyc.evs ||| m }
           evBy := t.evBy.mapIdx (fun i x => if m.getLsbD i then noteEng by' x else x) }

/-- Token count raised by 1 (R110) for an operation of an engine. -/
def Strand.tokUp (t : Strand) (by' : Eng) (w : Nat) : Strand :=
  { t with regs := { t.regs with w := lmod t.regs.w w (· + 1) }, tokBy := lmod t.tokBy w (noteEng by') }

/-- Token count lowered by 1 (R110). -/
def Strand.tokDown (t : Strand) (w : Nat) : Strand :=
  { t with regs := { t.regs with w := lmod t.regs.w w (· - 1) } }

/-- SEQ_FLAGS bits set by the strand (R43). -/
def Strand.raise (t : Strand) (f : Nat) : Strand :=
  { t with flags := t.flags ||| BitVec.ofNat 6 f, cyc := { t.cyc with fls := t.cyc.fls ||| BitVec.ofNat 6 f } }

/-- SEQ_FLAGS bits set (R43). DESIGN CHOICE (assumption 116): a flag is set at the issue of its word, where R44 asks only
that it be set no later than the word's bound. -/
def State.raise (s : State) (f : Nat) : State := s.modSt (fun t => t.raise f)

/-- SEQ_FLAGS bits set by a bounded word: a clear before the bound may come before the set (R44). -/
def State.raiseBy (s : State) (bound f : Nat) : State :=
  (s.raise f).modSt (fun t => { t with flHz := (f, s.now + bound) :: t.flHz })

/-- SEQ_FLAGS written with 1 bits to clear (R43, R44): a set of this cycle wins, and one in flight may come later. -/
def State.clearFlags (s : State) (v : Nat) : State :=
  let late := s.st.flHz.zipIdx.foldl (fun x (p : (Nat × Nat) × Nat) =>
    if s.now ≤ p.1.2 ∧ choice s (2 ^ 16 + 64 + p.2) = true then x ||| BitVec.ofNat 6 p.1.1 else x) s.st.cyc.fls
  s.modSt (fun t => { t with flags := t.flags &&& (~~~ BitVec.ofNat 6 v ||| late) })

/-- Results in flight once a cycle is reached: one that has landed stays while an earlier one of its unit has not
(R102). -/
def settleHz (now : Nat) : List Hazard → List Hazard
  | [] => []
  | h :: l =>
    let r := settleHz now l
    if now < h.due ∨ now < h.far ∨ r.any (fun x => x.unit == h.unit) = true then h :: r else r

/-- Results that have landed, and what held for the cycle that ends, leave the strand. -/
def Strand.settle (t : Strand) (now : Nat) : Strand :=
  { t with hz := settleHz now t.hz, flHz := t.flHz.filter (fun p => decide (now ≤ p.2)), cyc := {} }

/-- The slip bound in force: a new one counts from the cycle after its write (R82). -/
def Strand.bound (t : Strand) (now : Nat) : Nat := if t.slipFrom ≤ now then t.slipw else t.slipOld

end Sys2Proof.Machine
end

