-- ==== Sys2Proof/Machine/Xlate.lean ====
section
/-! DEFINITION. Translation contexts, page walks and TLBs (spec/19_address_translation.md). -/

namespace Sys2Proof.Machine

/-- Bytes of one HBM stack (R404). -/
def stackBytes : Nat := 0xC00000000
/-- End of device memory (Table 19.2). -/
def deviceEnd : Nat := 0x6000000000
/-- Start of the PCIe range (Table 19.2). -/
def pcieBase : Nat := 0x8000000000000

/-- Home stack of a device address (R404). -/
def homeStack (pa : Nat) : Nat := pa / stackBytes

/-- The record of an XID (R403). -/
def State.xidRec (s : State) (x : Nat) : XidRec := (aget s.xlt.xids x).getD ⟨0, 0, false⟩

/-- A physical page is withdrawn: poisoned, or homed at a fenced stack (R381, R383). -/
def State.poisonedPa (s : State) (pa : Nat) : Bool :=
  s.err.poisoned.contains (pa / 4096) || (pa < deviceEnd && (s.stack (homeStack pa)).fenced)

/-- Bit errors that an access finds are dropped from the list. -/
def State.dropUpset (s : State) (u : Upset) : State := { s with upsets := s.upsets.erase u }

/-- Cycles of the window over which corrected errors are counted and a report is held: 1 s (R401). -/
def reportWindow : Nat := 2300000000

/-- The unit that holds the array of a place, and the array's number in the unit (Table 18.5, R401); none for a link. -/
def UpsetPlace.array : UpsetPlace → Option (UnitId × Nat)
  | .scalar k _ | .vector k _ | .tile k _ | .command k _ | .token k _ | .event k | .queue k _ | .port k _ => some (.core (k % 128), 0)
  | .imem k _ => some (.core k, 1)
  | .rules k _ => some (.core k, 2)
  | .spad k _ => some (.core k, 3)
  | .l1 k _ => some (.core k, 4)
  | .slice n _ => some (.cluster n, 0)
  | .home pa => some (.stack (homeStack pa), 0)
  | .wst d _ => some (.weightStore d, 0)
  | .girder n u => some (.girder n, if u < 4 then 0 else 1)
  | _ => none

/-- A bit error is corrected: its array counts it for a second (R387, R401). -/
def State.corrected (s : State) (u : Upset) : State :=
  let s := s.dropUpset u
  match UpsetPlace.array u.place with
  | none => s
  | some a => s.modErr (fun e => { e with
      corrs := (a.1, a.2, s.now) :: e.corrs.filter (fun c => decide (s.now < c.2.2 + reportWindow)) })

/-- A bit error of the home line of an address, or of a flit that carries it (Table 18.5). -/
def upsetOnLine (u : Upset) (pa : Nat) : Bool :=
  match u.place with
  | .home p | .mesh p => lineKey p == lineKey pa
  | _ => false

/-- A home line read: its bit error is corrected and counted, or raises MEMORY_UE; a flit that the mesh sends again counts
nothing (R381, R387). -/
def State.homeScrub (s : State) (pa : Nat) : Res State :=
  match s.upsets.find? (upsetOnLine · pa) with
  | none => .ok s
  | some u =>
    if u.uncorr then .error (.fault { code := .memoryUe, cause := 4, addr := pa })
    else if UpsetPlace.array u.place = none then .ok (s.dropUpset u)
    else .ok ((s.corrected u).modStack (homeStack pa) (fun x => { x with hbmCorr := satAdd 0xFFFF x.hbmCorr 1 }))

/-- A home line read by an agent that reports no fault of its own: what R387 corrects is corrected. -/
def State.homeFixed (s : State) (pa : Nat) : State :=
  match s.homeScrub pa with
  | .ok s' => s'
  | .error _ => s

/-- What a walk finds (R408, R414). A fault or a poisoned entry names the level of the entry it was found in. -/
inductive WalkRes where
  | hit (e : TlbEntry)
  | fault (level : Nat)
  /-- An entry could not be read: physical address of its table page. -/
  | poison (page level : Nat)
  deriving DecidableEq, Repr, Inhabited

/-- Room for one more in a cache of cap entries in sets of ways. DESIGN CHOICE (assumption 122): the spec gives neither the
set of an entry nor the one that leaves a full set: once the cache holds a set's worth, a free choice decides whether the
new one finds its set full, and which one leaves. -/
def roomFor {α : Type} (ways cap pick : Nat) (l : List α) : Option α × List α :=
  if l.length < ways then (none, l)
  else if l.length < ways + pick % (cap - ways + 1) then (none, l)
  else
    let i := pick / 2 ^ 20 % l.length
    (l[i]?, l.eraseIdx i)

/-- The answer to an outbound bus address of a context (R404, R423): the address sent, whether writes are granted, and
the cache of 1,024 entries filled; none where no access is granted. -/
def State.atsFind (s : State) (ctx bus : Nat) : Option (Nat × Bool × State) :=
  let c := s.ctx ctx
  match c.pasid with
  | none => some (bus, true, s)
  | some p =>
    match s.host.atc.find? (fun e => e.1 == c.owner && e.2.1 == p && e.2.2.1 == bus / 4096) with
    | some e => some (e.2.2.2.1 * 4096 + bus % 4096, e.2.2.2.2, s)
    | none =>
      match Config.ats c.owner p (bus / 4096) s.free with
      | none => none
      | some (q, w) =>
        some (q * 4096 + bus % 4096, w,
          s.modHost (fun h => { h with atc := (roomFor 1024 1024 (s.pick 2) h.atc).2 ++ [(c.owner, p, bus / 4096, q, w)] }))

/-- A table lies in the table pool of its stack (R406). -/
def State.inPool (s : State) (t : Nat) : Bool :=
  let k := s.stack (homeStack t)
  t < deviceEnd && k.poolBase ≤ t && t + 4096 ≤ k.poolBase + k.poolSize

/-- A table entry cannot be read: its page is withdrawn, or its line holds an uncorrectable error (R387, R414). -/
def State.badEntry (s : State) (a : Nat) : Bool := s.poisonedPa a || s.upsets.any (fun u => u.uncorr && upsetOnLine u a)

/-- Page size of a leaf, as a shift (R405). -/
def leafShift (lv : Nat) (s64 : Bool) : Nat := if lv = 2 then 30 else if lv = 1 then 21 else if s64 then 16 else 12

/-- A walk from a table at level lv - 1 down (R405, R408). -/
def walkFrom (s : State) (xid va : Nat) : Nat → Nat → List Nat → WalkRes
  | 0, _, _ => .fault 0
  | n + 1, table, seen =>
    let a := table + 8 * fld va (12 + 9 * n) 9
    if s.badEntry a then .poison (table / 4096 * 4096) n else
    let e := mnat s.home a 8
    let frame := fld e 12 40 * 4096
    if bit e 0 = false ∨ fld e 52 12 ≠ 0 ∨ fld e 6 6 ≠ 0 then .fault n
    else if bit e 1 then
      if n = 0 ∨ fld e 2 4 ≠ 0 ∨ s.inPool frame = false then .fault n
      else walkFrom s xid va n frame (table :: seen)
    else
      let sh := leafShift n (bit e 5)
      if n = 3 ∨ (bit e 5 = true ∧ n ≠ 0) ∨ (bit e 4 = true ∧ bit e 3 = false) ∨ frame % 2 ^ sh ≠ 0
          ∨ (deviceEnd ≤ frame ∧ frame < pcieBase) then .fault n
      else .hit { xid := xid, vpage := va / 2 ^ sh, shift := sh, frame := frame, w := bit e 2, c := bit e 3,
                  mig := bit e 4, tables := table :: seen }

/-- The cached pointer a walker starts from: the one of the lowest level that covers the address (Table 19.4). -/
def cachedPtr (c : List WalkPtr) (walker xid va : Nat) : Option WalkPtr :=
  let at' (l : Nat) := c.find? (fun p => p.walker == walker && p.xid == xid && p.level == l
    && p.pre == va / 2 ^ (12 + 9 * l))
  match at' 1, at' 2, at' 3 with
  | some p, _, _ => some p
  | none, some p, _ => some p
  | none, none, p => p

/-- A walk that a walker makes with its walk cache (R409, R410). -/
def State.walkWith (s : State) (c : List WalkPtr) (walker xid va : Nat) : WalkRes :=
  let r := s.xidRec xid
  if r.valid = false then .fault 4 else
  match cachedPtr c walker xid va with
  | some p => walkFrom s xid va p.level p.table p.tables
  | none => walkFrom s xid va 4 r.root []

/-- The pointers read on the way to a leaf, from the tables read, root first. -/
def chainPtrs (walker xid va : Nat) : Nat → List Nat → List Nat → List WalkPtr
  | l + 1, seen, t :: u :: rest =>
    { walker := walker, xid := xid, level := l, pre := va / 2 ^ (12 + 9 * l), table := u, tables := t :: seen }
      :: chainPtrs walker xid va l (t :: seen) (u :: rest)
  | _, _, _ => []

/-- A walk of an XID (R403, R405). -/
def State.walk (s : State) (xid va : Nat) : WalkRes :=
  let r := s.xidRec xid
  if r.valid = false then .fault 4 else walkFrom s xid va 4 r.root []

/-- The entry that maps an address (R409). -/
def tlbFind (es : List TlbEntry) (xid va : Nat) : Option TlbEntry :=
  es.find? (fun e => e.xid == xid && e.vpage == va / 2 ^ e.shift)

/-- Physical address under an entry. -/
def TlbEntry.pa (e : TlbEntry) (va : Nat) : Nat := e.frame + va % 2 ^ e.shift

/-- An entry put into a TLB (Table 19.4). -/
def putEntry (ways cap pick : Nat) (l : List TlbEntry) (e : TlbEntry) : List TlbEntry :=
  if l.contains e then l else (roomFor ways cap pick l).2 ++ [e]

/-- An entry put into a cluster's TLB (R409). -/
def State.clusterFill (s : State) (n : Nat) (e : TlbEntry) : State :=
  s.modCluster n (fun c => { c with tlb := putEntry 8 2048 (s.pick 1) c.tlb e })

/-- An entry put into the L1 TLB of a core (R409). -/
def State.l1Fill (s : State) (k : Nat) (e : TlbEntry) : State :=
  s.modCore k (fun c => { c with tlb := putEntry 64 64 (s.pick 0) c.tlb e })

/-- An entry put into the L1 TLB of a core and its cluster's TLB (R409). -/
def State.tlbFill (s : State) (k : Nat) (e : TlbEntry) : State := (s.l1Fill k e).clusterFill (clusterOf k) e

/-- XID of the strand on a core (R403). -/
def State.xidOf (s : State) (k : Nat) : Nat := (s.ctx (s.strand k).task.ctx).xid

/-- Miss counted for XLT_STAT (R415). -/
def Strand.countMiss (t : Strand) : Strand := { t with tlbMiss := satAdd 0xFFFFFFFF t.tlbMiss 1 }

/-- Translation for a word of core k: L1 TLB, cluster TLB, then a walk request and a stall (R409, R410). -/
def State.xlate (s : State) (k va : Nat) : Res (TlbEntry × State) :=
  let xid := s.xidOf k
  if (s.xidRec xid).valid = false then .error (.fault { code := .translation, addr := va }) else
  match tlbFind (s.core k).tlb xid va with
  | some e => .ok (e, s)
  | none =>
  match tlbFind (s.cluster (clusterOf k)).tlb xid va with
  | some e => .ok (e, (s.l1Fill k e).modStrand k Strand.countMiss)
  | none =>
    if (s.strand k).walkFault.contains (va / 4096) then .error (.fault { code := .translation, addr := va })
    else .error (.miss { core := k, xid := xid, va := va })

/-- A request enters the miss queue of its own stack domain's walkers; while the queue is full the word waits (R410). -/
def State.askWalk (s : State) (r : WalkReq) : State :=
  let st := stackOf (clusterOf r.core)
  let q := (s.stack st).missq
  if q.any (fun x => x.core == r.core && x.eng == r.eng && x.va / 4096 == r.va / 4096) || decide (512 ≤ q.length) then s
  else (s.modStrand r.core Strand.countMiss).modStack st (fun x => { x with missq := x.missq ++ [r] })

/-! ### Walks -/

/-- Pointers put into a stack's walk cache: 128 for each walker (Table 19.4). -/
def addPtrs (pick : Nat) (c : List WalkPtr) (ps : List WalkPtr) : List WalkPtr :=
  ps.foldl (fun c p =>
    if c.contains p then c
    else c.filter (fun x => x.walker != p.walker) ++ (roomFor 128 128 pick (c.filter (fun x => x.walker == p.walker))).2
      ++ [p]) c

/-- Two addresses reach the same entry at a level, so that their walks join there (R410). -/
def sameEntry (level a b : Nat) : Bool := a / 2 ^ (12 + 9 * level) == b / 2 ^ (12 + 9 * level)

/-- Level of the entry that a translation comes from (R405). -/
def TlbEntry.level (e : TlbEntry) : Nat := if e.shift = 30 then 2 else if e.shift = 21 then 1 else 0

/-- Requests of a miss queue that join a walk of an XID and address at an entry. -/
def WalkReq.joins (level xid va : Nat) (x : WalkReq) : Bool := x.xid == xid && sameEntry level x.va va

/-- The entries that a walk read, from the level it began at: their lines' errors are corrected (R387). -/
def State.walkRead (s : State) (level va : Nat) (tables : List Nat) : State :=
  (tables.reverse.drop (4 - level)).zipIdx.foldl (fun s p =>
    s.homeFixed (p.1 + 8 * fld va (12 + 9 * (level - 1 - p.2)) 9)) s

/-- A walk that found an entry: the translations of the requests it serves, and the pointers it read, are cached
(R409). -/
def State.walkHit (s : State) (st walker xid va : Nat) (e : TlbEntry) : State :=
  let from' := match cachedPtr (s.stack st).walkCache walker xid va with
    | some p => p.level
    | none => 4
  let s := s.walkRead from' va e.tables
  let s := ((s.stack st).missq.filter (WalkReq.joins e.level xid va)).foldl (fun s x => s.tlbFill x.core e) s
  s.modStack st (fun k => { k with
    missq := k.missq.filter (fun x => !x.joins e.level xid va)
    walkCache := addPtrs (s.pick 2) k.walkCache (chainPtrs walker xid va 4 [] e.tables.reverse) })

/-- A request served by a walk that found a fault: each strand whose request joins it raises it (R410). -/
def State.walkFaults (s : State) (st level : Nat) (r : WalkReq) : State :=
  let s := ((s.stack st).missq.filter (WalkReq.joins level r.xid r.va)).foldl (fun s x =>
    s.modStrand x.core (fun t => { t with walkFault := x.va / 4096 :: t.walkFault })) s
  s.modStack st (fun k => { k with missq := k.missq.filter (fun x => !x.joins level r.xid r.va) })

/-- A fault found in a walk keeps what the walk leaves. -/
def State.walkFails (s : State) (f : FInfo) : Exc := .partly s f

/-- Translation for a command of core k (R267, R403, R409, R410): a command of the copy engine looks in the core's L1 TLB,
one of the Girder in the cluster's TLB alone; a miss enters the miss queue of its stack domain, and is served there at once
while a walker is free, with the requests that join its walk. It waits while 256 walks, or 512 requests, are ahead of it. DESIGN
CHOICE (assumption 123): the walk of a command is one step. -/
def State.xlateNow (s : State) (k : Nat) (gir : Bool) (va : Nat) : Res (TlbEntry × State) :=
  let xid := s.xidOf k
  if (s.xidRec xid).valid = false then .error (.fault { code := .translation, addr := va }) else
  match if gir then none else tlbFind (s.core k).tlb xid va with
  | some e => .ok (e, s)
  | none =>
    let missed (s : State) : State := if gir then s else s.modStrand k Strand.countMiss
    let fill (s : State) (e : TlbEntry) : State := if gir then s else s.l1Fill k e
    match tlbFind (s.cluster (clusterOf k)).tlb xid va with
    | some e => .ok (e, missed (fill s e))
    | none =>
      let st := stackOf (clusterOf k)
      let d := s.stack st
      if 256 ≤ d.missq.length then .error .stall else
      let walker := s.pick 3 % 8
      let r : WalkReq := { core := k, xid := xid, va := va }
      match s.walkWith d.walkCache walker xid va with
      | .hit e => .ok (e, missed (fill ((s.walkHit st walker xid va e).clusterFill (clusterOf k) e) e))
      | .fault level => .error ((missed (s.walkFaults st level r)).walkFails { code := .translation, addr := va })
      | .poison p _ => .error ((missed s).walkFails { code := .translationPoison, addr := p })

end Sys2Proof.Machine
end

