-- ==== Sys2Proof/Machine/Tasks.lean ====
section
/-! DEFINITION. How tasks, gangs and contexts end: fault records, join objects, halt lines, discards, fences and the
Parapet's trigger and latch (spec/17_tasks_and_scheduler.md, spec/18_faults_and_containment.md). -/

namespace Sys2Proof.Machine

/-- Device timer in nanoseconds: 10 ns per 23 cycles (R436). -/
def State.devTime (s : State) : Nat := s.now / 23 * 10

/-- Numbers of the fault codes (Table 18.1). -/
def FCode.num : FCode → Nat
  | .illegalEncoding => 0x01 | .illegalOperand => 0x02 | .privilege => 0x03 | .alignment => 0x04
  | .translation => 0x05 | .permission => 0x06 | .translationPoison => 0x07 | .memoryUe => 0x08
  | .queueUnderflow => 0x09 | .delaySlot => 0x0A | .caissonCount => 0x0B | .commandField => 0x0C
  | .lease => 0x0D | .boundaryOverflow => 0x0E | .futureOverwrite => 0x0F | .keystoneRule => 0x10
  | .checkerMismatch => 0x11 | .postcommitLong => 0x12 | .trap => 0x13 | .watchdog => 0x14
  | .scratchBounds => 0x15

/-- Codes that Table 18.1 never calls precise. -/
def FCode.imprecise : FCode → Bool
  | .translationPoison | .memoryUe | .postcommitLong | .watchdog => true
  | _ => false

/-- Number of a context's vector among all vectors: 1,024 of the physical function, then 64 of each virtual function
(R422). -/
def vecOf (owner vec : Nat) : Nat := if owner = 0 then vec else 1024 + 64 * (owner - 1) + vec

/-- An MSI-X message, or the pending bit of a masked vector (R422). -/
def State.msix (s : State) (vec : Nat) : State :=
  s.modHost (fun h =>
    if h.msixMask.contains vec then
      { h with msixPend := if h.msixPend.contains vec then h.msixPend else vec :: h.msixPend }
    else { h with msixSent := h.msixSent ++ [vec] })

/-- The message of a context's vector (R379, R422). -/
def State.msixCtx (s : State) (c : Nat) : State := s.msix (vecOf (s.ctx c).owner (s.ctx c).vec)

/-- A message to the host (Host.lean lists the tags). -/
def State.toHost (s : State) (tag val : Nat) : State := s.modHost (fun h => { h with outbox := h.outbox ++ [(tag, val)] })

/-- An access completed as an Unsupported Request (R418, R420, R433). -/
def State.unsupported (s : State) : State := s.toHost 0x101 0

/-- A write of a launch mailbox, a boot mailbox or ERR_PTRIG that comes before READY: it is served where READY is set in its own
cycle, and otherwise completed as an Unsupported Request (R433). -/
def State.beforeReady (s : State) (t : Turn) : State :=
  if s.power.linkNext then { s with power := { s.power with early := s.power.early ++ [t] } } else s.unsupported

/-- The cycle of such writes ends with READY not set (R433). -/
def State.earlyOut (s : State) : State :=
  s.power.early.foldl (fun s _ => s.unsupported) { s with power := { s.power with early := [] } }

/-! ### Wakes -/

/-- A gated core wakes (R402): after its commit point what gating loses is lost (R438), and a wake in the same cycle aborts the
entry. -/
def State.wakeCore (s : State) (k : Nat) : State :=
  let c := s.core k
  if c.gated = false then s
  else if s.now ≤ c.gateAt then s.modCore k (fun c => { c with gated := false })
  else s.modCore k (fun c => { c with gated := false, imem := [], l1 := [], freeSince := s.now })

/-- A gated cluster wakes (R402, R438). -/
def State.wakeCluster (s : State) (n : Nat) : State :=
  let c := s.cluster n
  if c.gated = false then s
  else if s.now ≤ c.gateAt then s.modCluster n (fun c => { c with gated := false })
  else s.modCluster n (fun c => { c with gated := false, slice := [] })

/-- A wake in the cycle of the commit point aborts the entry (R402). -/
def State.wakeAtOnce (s : State) (k : Nat) : State :=
  let s := if (s.cluster (clusterOf k)).gateAt < s.now then s else s.wakeCluster (clusterOf k)
  if (s.core k).gateAt < s.now then s else s.wakeCore k

/-- The scratchpad of a core is accessed by a peer, which is a wake: it waits where the core has passed its commit point
(R402). -/
def State.peerWake (s : State) (k : Nat) : Res State :=
  if (s.core k).gated = false then .ok s
  else if (s.core k).gateAt < s.now then .error .stall
  else .ok (s.wakeAtOnce k)

/-! ### Start delays -/

/-- A cluster holds a Parapet core. -/
def State.parCluster (s : State) (n : Nat) : Bool :=
  s.err.designated && (clusterOf s.err.coreA == n || clusterOf s.err.coreB == n)

/-- The start delay of every Girder outside the Parapet's clusters changed: those are never throttled (R437, R439). -/
def State.setDelay (s : State) (f : Nat → Nat) : State :=
  { s with clusters := s.clusters.mapIdx (fun n (c : Cluster) =>
      if s.parCluster n then c else { c with gir := { c.gir with k := f c.gir.k } }) }

/-- Above 95 °C the start delay rises by 1 every 100 µs, to 8 (Table 21.4). -/
def State.heat (s : State) : State :=
  match s.power.heatAt with
  | none => s
  | some t =>
    let m := (s.now - t) / 230000
    if s.power.temp ≤ 95 ∨ m = 0 then s
    else { s.setDelay (fun k => min 8 (k + m)) with power := { s.power with heatAt := some (t + 230000 * m) } }

/-- A stack is accessed, which ends its self-refresh (R438). -/
def State.hbmUsed (s : State) (pa : Nat) : State :=
  s.modStack (homeStack pa) (fun x => { x with lastAccess := s.now, selfRefresh := false })

/-- Lines that a memory-side cache holds written: their bytes go to HBM (R222, R230, R231). -/
def State.mscWrite (s : State) (p : Nat → Bool) : State :=
  { s with
    hbm := (s.home.filter (fun c => p (lineKey c.1))).foldl (fun m c => mset m c.1 c.2)
      (s.hbm.filter (fun c => !p (lineKey c.1)))
    doms := s.doms.map (fun (k : Stack) =>
      if k.msc.any (fun l => p (128 * l)) then
        { k with msc := k.msc.filter (fun l => !p (128 * l)), lastAccess := s.now, selfRefresh := false }
      else k) }

/-- Every memory-side cache written back. -/
def State.mscFlush (s : State) : State := { s.mscWrite (fun _ => true) with hbm := s.home }

/-- A line is written at its home: the memory-side cache holds it (Table 11.1: 16 MiB, 16 ways), and one that must make room
goes to HBM. -/
def State.mscHold (s : State) (pa : Nat) : State :=
  let k := s.stack (homeStack pa)
  if k.msc.contains (pa / 128) then s else
  match roomFor 16 131072 (s.pick 7) k.msc with
  | (none, _) => s.modStack (homeStack pa) (fun x => { x with msc := pa / 128 :: x.msc })
  | (some v, _) => (s.mscWrite (· == 128 * v)).modStack (homeStack pa) (fun x => { x with msc := pa / 128 :: x.msc })

/-- The lines of n bytes at an address are about to be written at their home. -/
def State.homeTake (s : State) (pa n : Nat) : State :=
  (List.range ((pa + n - 1) / 128 - pa / 128 + 1)).foldl (fun s i => s.mscHold (pa + 128 * i)) (s.hbmUsed pa)

/-- Bytes written at the home, and seen by no cache until it misses (R384). -/
def State.homePuts (s : State) (pa : Nat) (l : List Byte) : State :=
  let s := s.homeTake pa l.length
  { s with home := mputs s.home pa l }

/-- The 64 bytes of a fault record (Table 18.4), as numbers with their sizes. -/
def recordBytes (code cause flags engine ctx core member text image addr data kslot kpos lane step aux time seq
    ckind cqueue : Nat) : List Byte :=
  bytesLE 1 code ++ bytesLE 1 cause ++ bytesLE 1 flags ++ bytesLE 1 engine ++ bytesLE 2 ctx ++ bytesLE 1 core
    ++ bytesLE 1 member ++ bytesLE 4 text ++ bytesLE 4 image ++ bytesLE 8 addr ++ bytesLE 8 data ++ bytesLE 1 kslot
    ++ bytesLE 1 kpos ++ bytesLE 1 lane ++ bytesLE 1 step ++ bytesLE 4 aux ++ bytesLE 8 time ++ bytesLE 4 seq
    ++ bytesLE 1 ckind ++ bytesLE 1 cqueue ++ bytesLE 10 0

/-- A record written to slot SEQ mod 2^FALOG of a context's fault area, at the home (R384); a page that is withdrawn takes none
(R381, R383). -/
def State.putRecord (s : State) (area : Nat) (bytes : Nat → List Byte) : State :=
  let c := s.ctx area
  let pa := c.faultBase + 64 * (c.seq % 2 ^ c.falog)
  (if s.poisonedPa pa then s else s.homePuts pa (bytes c.seq)).modCtx area (fun c => { c with seq := (c.seq + 1) % 2 ^ 32 })

/-- A record with CODE 0 (R385): cause, context, image, address, data, and AUX. -/
def State.noteRecord (s : State) (cause ctx image addr data aux : Nat) : State :=
  let s' := s.putRecord ctx (fun seq =>
    recordBytes 0 cause 0 6 ctx 0 0 0xFFFFFFFF image addr data 0 0 0 0 aux s.devTime seq 0 0)
  s'

/-- The level at which halt output 0 or 1 is sensed, true for asserted, and the level it drives (R430). -/
def Err.driven (e : Err) (out : Nat) : Bool := if out = 0 then e.ha else e.hb
def Err.sensed (e : Err) (out : Nat) : Bool := (lget e.sense out none).getD (e.driven out)

/-- The value of ERR_PSTAT (Table 18.8); HA and HB are the sensed levels (R430). -/
def Err.pstat (e : Err) : Nat :=
  b2n (e.sensed 0) + 2 * b2n (e.sensed 1) + 2 ^ 32 * b2n e.pend + 2 ^ 33 * b2n e.run + 2 ^ 34 * b2n e.latch + 2 ^ 40 * e.zone
    + 2 ^ 48 * e.count

/-- The Parapet is armed and in service (R393). -/
def State.armed (s : State) : Bool :=
  s.err.arm && s.err.designated && !(s.core s.err.coreA).fenced && !(s.core s.err.coreB).fenced

/-- The outputs latch asserted, which counts as a trigger that names no zone (R392, R396). -/
def State.latchOutputs (s : State) : State :=
  s.modErr (fun e => { e with ha := true, hb := true, latch := true, count := satAdd 0xFFFF e.count 1, zone := 0 })

/-- A Parapet task is being started on a core or runs (R392). -/
def State.parapetBusy (s : State) : Bool :=
  s.err.run || (s.core s.err.coreA).preempt != 0 || (s.core s.err.coreB).preempt != 0

/-- The gang of a Parapet run: context 0, on both cores. -/
def Err.newGang (e : Err) (now : Nat) : Gang :=
  { id := 0, task := { n := 2, image := e.img }, members := [{ core := e.coreA }, { core := e.coreB }],
    level := 0, startedAt := now }

/-- The pre-emption sequence begins on both Parapet cores (R395), with the status that the trigger found. -/
def State.parapetBegin (s : State) (stat : Nat) : State :=
  let s := s.modErr (fun e => { e with
    trigStat := stat, ended := [], unpaired := [], runNo := e.runNo + 1, pgang := some (e.newGang s.now) })
  let go (c : Core) : Core := { c with preempt := 1 }
  (s.modCore s.err.coreA go).modCore s.err.coreB go

/-- A trigger by a guard zone, the host or the arming write (R392, R394). DESIGN CHOICE (assumption 132): of several
triggers that wait, the last one's status starts the next run. -/
def State.parapetTrigger (s : State) (zone : Nat) : State :=
  let s := s.modErr (fun e => { e with count := satAdd 0xFFFF e.count 1, zone := zone })
  if s.armed = false then s
  else if s.parapetBusy then s.modErr (fun e => { e with pendStat := e.pstat, pend := true })
  else s.parapetBegin s.err.pstat

/-- A Girder forgets a core's lease and its commands (R271, R272). -/
def Girder.dropCore (g : Girder) (k : Nat) : Girder :=
  { g with
    queue := g.queue.filter (fun x => match x with
      | .marker c => c != k
      | .cmd c => c.core != k)
    holder := if g.holder = some k then none else g.holder
    prev := if g.holder = some k then k % 4 else g.prev
    ran := g.ran.filter (fun r => r.cmd.core != k)
    replayed := g.replayed.filter (fun p => p.1 != k)
    lcnt := if g.holder = some k then 0 else g.lcnt }

/-- Elements of a list cleared where the owner list, from position i on, names a gang. -/
def clearOwned {α : Type} (own : List (Option Nat)) (id : Nat) (zero : α) (l : List α) (i : Nat) : List α :=
  l.mapIdx (fun j x => if lget own (i + j) none = some id then zero else x)

/-- Banks and buffers of a gang are zeroed and become free (R271). -/
def Girder.dropGang (g : Girder) (id : Nat) : Girder :=
  { g with
    banks := clearOwned g.owner id [] g.banks 0
    sbs := clearOwned g.owner id [] g.sbs 4
    sbScale := clearOwned g.owner id [] g.sbScale 4
    sbLoad := clearOwned g.owner id none g.sbLoad 4
    wrote := g.wrote.filter (fun w => lget g.owner w.1 none != some id)
    owner := g.owner.map (fun o => if o = some id then none else o) }

/-- A gang's banks and buffers in every Girder are zeroed and become free, and bit errors of what they held go (R271). -/
def State.freeUnits (s : State) (id : Nat) : State :=
  { s with
    upsets := s.upsets.filter (fun u => match u.place with
      | .girder n i => lget (s.girder n).owner i none != some id
      | _ => true)
    clusters := s.clusters.map (fun (c : Cluster) => { c with gir := c.gir.dropGang id }) }

/-- A slot becomes free and its generation advances (R212). -/
def Slot.release (x : Slot) : Slot :=
  { x with st := .free, gen := (x.gen + 1) % 65536, count := 0, gang := 0, bytes := [], give := false }

/-- A gang's open and sealed-pending tiles become free (R211). -/
def Partition.dropGang (p : Partition) (id : Nat) : Partition :=
  { p with slots := p.slots.map (fun x =>
      if x.gang = id ∧ (x.st = .opened ∨ x.st = .pending) then x.release else x) }

/-- What a gang holds in the clusters goes with it: its banks, its buffers and its uncommitted tiles (R211, R271). -/
def State.freeParts (s : State) (id : Nat) : State :=
  let s := s.freeUnits id
  { s with clusters := s.clusters.map (fun (c : Cluster) =>
      { c with parts := c.parts.map (fun (p : Partition) => p.dropGang id) }) }

/-- Words of an allotment that its clearing rewrites (R187, R189). -/
def State.dropSpad (s : State) (k n : Nat) : State :=
  { s with upsets := s.upsets.filter (fun u => match u.place with
    | .spad c o => !(c == k && decide (o < n))
    | _ => true) }

/-- The place lies in the registers, tokens, events, queues or ports of a context. -/
def UpsetPlace.inCtx (n : Nat) : UpsetPlace → Bool
  | .scalar k _ | .vector k _ | .tile k _ | .command k _ | .token k _ | .event k | .queue k _ | .port k _ => k == n
  | _ => false

/-- The registers of a context are written whole at the start of a strand, and their bit errors go (R99, R366, R387). -/
def State.freshRegs (s : State) (n : Nat) : State := { s with upsets := s.upsets.filter (fun u => !UpsetPlace.inCtx n u.place) }

/-- A strand that ends leaves its Girder's queue and lease, and its TALLOC waits, in whichever cluster they stand (R214,
R271). -/
def State.leaveUnits (s : State) (k : Nat) : State :=
  let s := s.modGirder (clusterOf k) (fun g => g.dropCore k)
  { s with clusters := s.clusters.map (fun (c : Cluster) =>
      { c with parts := c.parts.map (fun (p : Partition) => { p with waiting := p.waiting.filter (· != k) }) }) }

/-- The Parapet context of a core is cleared and its core returns to the scheduler (R187, R398). -/
def State.parClear (s : State) (k : Nat) : State :=
  if (s.core k).inPar then
    ((s.leaveUnits k).dropSpad k (s.core k).par.allot).modCore k (fun c => { c with
      par := {}, inPar := false, preempt := 0, freeSince := s.now, spad := mclear c.spad 0 c.par.allot, ldq := [], stq := [] })
  else s.modCore k (fun c => { c with preempt := 0 })

/-- Both cores have ended a run: writes left unpaired that have not counted as missing their partner count now, and
a pending trigger starts the task again (R392, R396). -/
def State.parapetOver (s : State) : State :=
  let s := (s.err.unpaired.filter (fun w => !w.counted)).foldl (fun s _ => s.latchOutputs) s
  let s := s.modErr (fun e => { e with run := false, unpaired := [], ended := [], pgang := none })
  if s.err.pend && s.armed then (s.modErr (fun e => { e with pend := false })).parapetBegin s.err.pendStat
  else s.modErr (fun e => { e with pend := false })

/-- The ordinary strand of a core ends: allotment cleared, queues dropped, lease given up, TALLOC waits left,
and the context's deficit reduced by the microseconds it held the core (R187, R357, R371). -/
def State.clearStrand (s : State) (k : Nat) : State :=
  let t := (s.core k).ord
  let s := s.modCtx t.task.ctx (fun c => { c with deficit := c.deficit - ((s.now - t.startedAt) / 2300 : Nat) })
  ((s.leaveUnits k).dropSpad k t.allot).modCore k (fun c => { c with
    ord := {}, spad := mclear c.spad 0 t.allot, ldq := [], stq := [], freeSince := s.now })

/-- Size of an extent of a buffer (Table 11.6). -/
def extBytes (d : BufDesc) : Nat := 2 ^ (12 + d.esize)
/-- Physical base of an extent in a backing: true names B. -/
def extPhys (d : BufDesc) (b : Bool) (e : Nat) : Nat := (if b then d.backB else d.backA) + e * extBytes d

/-- A buffer of a context by handle. -/
def Ctx.buf (c : Ctx) (h : Nat) : Option PubBuf := c.bufs.find? (fun b => b.handle == h)

/-- Cached lines of a physical range leave every L1 and slice. -/
def State.dropLines (s : State) (lo hi : Nat) : State :=
  let keep (ls : List Line) := ls.filter (fun l => l.key + 128 ≤ lo || hi ≤ l.key)
  { s with cores := s.cores.map (fun c => { c with l1 := keep c.l1 })
           clusters := s.clusters.map (fun (c : Cluster) => { c with slice := keep c.slice }) }

/-- Cached lines of a physical range leave every slice and L1, with their dirty bytes. -/
def State.settleLines (s : State) (lo hi : Nat) : State :=
  let mine (l : Line) : Bool := decide (lo < l.key + 128) && decide (l.key < hi) && l.dirty != 0#128
  let ls := (s.clusters.flatMap (·.slice)).filter mine ++ (s.cores.flatMap (·.l1)).filter mine
  let s := ls.foldl (fun s l => if s.poisonedPa l.key then s else
    let s := s.homeTake l.key 128
    { s with home := lineDrain s.home l }) s
  s.dropLines lo hi

/-- A discarded gang's writes stay in its shadows, which no reader sees (R443), and no cache holds them any more; what its
commands wrote in compressed pages outside every buffer is withdrawn (R268). -/
def State.leaveShadows (s : State) (g : Gang) : State :=
  let s := g.wset.foldl (fun s w =>
    match (s.ctx g.task.ctx).buf w.buf with
    | none => s
    | some b =>
      let lo := extPhys b.desc (!(lget b.sel w.ext false)) w.ext
      s.settleLines lo (lo + extBytes b.desc)) s
  g.raw.foldl (fun s c => s.homePuts c.1 [c.2]) s

/-- The Parapet task is killed on both cores, with nothing uncommitted left of it (R367, R394, R398). -/
def State.parapetKill (s : State) : State :=
  if s.parapetBusy then
    let s := match s.err.pgang with
      | some g => if g.committed then s else (s.leaveShadows g).freeParts 0
      | none => s
    ((s.parClear s.err.coreA).parClear s.err.coreB).parapetOver
  else s

/-- The update of a join object by one ended child (R203), on the object's 16 bytes as a number. -/
def joinValue (x code : Nat) (killed : Bool) : Nat :=
  let cnt := fld x 0 32
  let x := if cnt = 0 then setFld x 74 1 1 else setFld x 0 32 (cnt - 1)
  let x := if code = 0 then x
    else setFld (if bit x 72 then x else setFld x 64 8 code) 72 1 1
  if killed then setFld x 73 1 1 else x

/-- The buffer of a context that holds an address: buffer, extent, offset within it (R237). -/
def Ctx.bufAt (c : Ctx) (va : Nat) : Option (PubBuf × Nat × Nat) :=
  match c.bufs.find? (fun b => decide (b.desc.base ≤ va) &&
      decide (va < b.desc.base + b.desc.extents * extBytes b.desc)) with
  | none => none
  | some b => some (b, (va - b.desc.base) / extBytes b.desc, (va - b.desc.base) % extBytes b.desc)

/-- Why an access of an aperture, of the scheduler or of a fixed engine fails: no translation, a page it may not access, a table
that cannot be read, or memory that cannot. -/
inductive SrcBad where
  | walk
  | right
  | table (page : Nat)
  | memory (pa : Nat)
  deriving DecidableEq, Repr

/-- A walk for an agent that is no core's: a translation that some TLB still holds stays in force until an invalidation removes
it (R407, R411). DESIGN CHOICE (assumption 126): the spec gives such an agent no TLB of its own. -/
def State.agentWalk (s : State) (xid va : Nat) : WalkRes :=
  if (s.xidRec xid).valid = false then .fault 4 else
  match (s.clusters.findSome? (fun (c : Cluster) => tlbFind c.tlb xid va)).or
      (s.cores.findSome? (fun (c : Core) => tlbFind c.tlb xid va)) with
  | some e => .hit e
  | none =>
    let k := s.stack (homeStack (s.xidRec xid).root)
    s.walkWith k.walkCache (s.pick 3 % 8) xid va

/-- The physical address at which a context's plain view has an address at this moment, at current backings (R237, R244,
R412). wr marks a write, which reaches no published buffer but by a gang. -/
def State.agentPhys (s : State) (ctx va : Nat) (wr : Bool) : Except SrcBad Nat :=
  let seen (pa : Nat) : Except SrcBad Nat := if s.poisonedPa pa then .error (.memory pa) else .ok pa
  match (s.ctx ctx).bufAt va with
  | some (b, e, off) => if wr then .error .right else seen (extPhys b.desc (lget b.sel e false) e + off)
  | none =>
    match s.agentWalk (s.ctx ctx).xid va with
    | .hit e => if e.c = true ∨ wr = true ∧ e.w = false then .error .right else seen (e.pa va)
    | .fault _ => .error .walk
    | .poison p _ => .error (.table p)

/-- n bytes at a physical address, or a bus address of the PCIe range (Table 19.2). -/
def State.physNat (s : State) (pa n : Nat) : Nat :=
  if pcieBase ≤ pa then mnat s.host.mem (pa - pcieBase) n else mnat s.home pa n

/-- A device address of a context that the scheduler or a fixed engine reads or changes there: errors of its line are
corrected, or consumed (R381, R387). -/
def State.agentAt (s : State) (ctx va : Nat) (wr : Bool) : Except SrcBad (Nat × State) := do
  let pa ← s.agentPhys ctx va wr
  if deviceEnd ≤ pa then pure (pa, s) else
  match s.homeScrub pa with
  | .ok s => pure (pa, s)
  | .error _ => .error (.memory pa)

/-- An access of the scheduler or of a fixed engine has failed: what it found is contained next (R381, R414). No task raises a
fault for it. DESIGN CHOICE (assumption 126): the access has no effect. -/
def State.agentFails (s : State) (ctx : Nat) : SrcBad → State
  | .table p => { s with agenda := .contain p ctx true :: s.agenda }
  | .memory pa => { s with agenda := .contain pa ctx false :: s.agenda }
  | _ => s

/-- The join update of a task (R203, R372). -/
def State.joinUpdate (s : State) (r : TaskRec) (code : Nat) (killed : Bool) : State :=
  if r.jaddr = 0 ∨ bit r.flags 2 = true then s else
  match s.agentAt r.ctx r.jaddr true with
  | .error b => s.agentFails r.ctx b
  | .ok (pa, s) =>
    if pcieBase ≤ pa then s else s.homePuts pa (bytesLE 16 (joinValue (mnat s.home pa 16) code killed))

/-- The completion write of a direct launch with HD, at a multiple of 8 (R373): what the task committed is visible at
.system before host memory shows it. DESIGN CHOICE (assumption 126): an address that is no multiple of 8 gets no write. -/
def State.hdWrite (s : State) (r : TaskRec) (bad : Bool) : State :=
  if bit r.flags 2 = false ∨ r.stage ≠ 15 ∨ r.jaddr % 8 ≠ 0 then s else
  let v := bytesLE 8 (1 + 2 * b2n bad)
  match s.agentPhys r.ctx r.jaddr true with
  | .error b => s.agentFails r.ctx b
  | .ok pa =>
    if pcieBase ≤ pa then
      match s.atsFind r.ctx (pa - pcieBase) with
      | some (b, true, s) => s.mscFlush.modHost (fun h => { h with mem := mputs h.mem b v })
      | _ => s
    else s.homePuts pa v

/-- A frame launch's entry is held no longer (R331). -/
def State.frameDone (s : State) (r : TaskRec) : State :=
  if r.src = 2 ∨ r.src = 3 then
    match (s.ctx r.ctx).stream with
    | some i => s.modStream i (fun x => { x with busy := x.busy.erase r.frame })
    | none => s
  else s

/-- A task ends: its join object, its completion write, its frame entry (R372, R373). -/
def State.taskEnd (s : State) (r : TaskRec) (code : Nat) (killed : Bool) : State :=
  ((s.joinUpdate r code killed).hdWrite r (code != 0 || killed)).frameDone r

/-- A gang leaves the scheduler's list. -/
def State.dropGang (s : State) (id : Nat) : State :=
  s.modSched (fun d => { d with gangs := d.gangs.filter (fun g => g.id != id) })

/-- One member's strand has ended; the task ends with its last member (R371, R372). -/
def State.memberEnd (s : State) (id k code : Nat) (killed : Bool) : State :=
  let s := s.modGang id (fun g => { g with
    members := g.members.map (fun m => if m.core = k then { m with ended := true } else m)
    fault := if g.fault = 0 then code else g.fault
    killed := g.killed || killed })
  match s.gang id with
  | none => s
  | some g =>
    if g.members.all (·.ended) then
      ((s.freeUnits id).dropGang id).taskEnd g.task g.fault g.killed
    else s

/-- What becomes of a discarded gang's task. -/
inductive Fate where
  /-- It ends faulted with a code (R379). -/
  | faulted (code : Nat)
  /-- It is killed by a fence (R382). -/
  | killed
  /-- It is re-queued, its discard count raised or not (R361). -/
  | requeue (bump : Bool)
  /-- It is re-queued for its members' cores first, or after a first checker mismatch (R390). -/
  | relaunch (member core : Nat)
  deriving DecidableEq, Repr

/-- The record as it returns to the scheduler. -/
def Fate.record (r : TaskRec) : Fate → TaskRec
  | .requeue true => { r with disc := r.disc + 1, onCore := none, mism := 0 }
  | .relaunch m k => { r with mism := r.mism + 1, onCore := some (m, k) }
  | _ => { r with onCore := none, mism := 0 }

/-- An uncommitted gang is discarded: nothing of it remains but the effects R239 exempts (R367, R379). -/
def State.discard (s : State) (id : Nat) (fate : Fate) : State :=
  match (if id = 0 then none else s.gang id) with
  | none => s
  | some g =>
    let s := s.leaveShadows g
    let s := g.members.foldl (fun s m => if m.ended then s else s.clearStrand m.core) s
    let s := (s.freeParts id).dropGang id
    match fate with
    | .faulted code => s.taskEnd g.task code false
    | .killed => s.taskEnd g.task 0 true
    | f => if g.task.service then s else s.modSched (fun d => { d with recs := f.record g.task :: d.recs })

/-- Slots that leave a cluster's partitions: their generations advance and are kept (R205, R212, R221). -/
def Cluster.keepGens (c : Cluster) (gone : List Slot) : Cluster :=
  let keep (g : Nat × Nat × Nat) : Bool := !gone.any (fun x => x.core == g.1 && x.unit == g.2.1)
  { c with gens := c.gens.filter keep ++ gone.map (fun x => (x.core, x.unit, (x.gen + 1) % 65536)) }

/-- Every slot of a fenced context's partitions is reclaimed: it is free, and no slot of the partition any more until the
instance is created anew (R205, R221, assumption 88). -/
def State.reclaimSlots (s : State) (c : Nat) : State :=
  { s with clusters := s.clusters.map (fun (x : Cluster) =>
      { x.keepGens ((x.parts.filter (fun p => p.ctx == c)).flatMap (·.slots)) with
        parts := x.parts.map (fun p => if p.ctx = c then { p with slots := [], waiting := [] } else p) }) }

/-- A context is fenced (R382). -/
def State.fenceCtx (s : State) (c : Nat) : State :=
  let s := s.modCtx c (fun x => { x with fenced := true })
  let s := (s.sched.gangs.filter (fun g => g.task.ctx == c && !g.committed)).foldl
    (fun s g => s.discard g.id .killed) s
  let mine := s.sched.recs.filter (fun r => r.ctx == c)
  let s := s.modSched (fun d => { d with
    recs := d.recs.filter (fun r => r.ctx != c)
    heldLaunch := d.heldLaunch.filter (fun r => r.ctx != c)
    counters := d.counters.filter (fun p => !(decide ((s.ctx c).dbase ≤ p.1) &&
      decide (p.1 < (s.ctx c).dbase + (s.ctx c).dcnt))) })
  let s := mine.foldl (fun s r => s.taskEnd r 0 true) s
  let s := s.reclaimSlots c
  match (s.ctx c).stream with
  | none => s
  | some i => s.modStream i (fun x => { x with
      paused := true, cold := true, decs := [], colds := [], busy := []
      base := if x.delivered then x.frame + 1 else 0 })

/-- The Parapet loses a core: it becomes unarmed and its outputs are asserted (R382, R393). DESIGN CHOICE (assumption 133):
R382 withdraws the fenced core and says nothing of the other one, whose designation ends with it. -/
def State.undesignate (s : State) (k : Nat) : State :=
  if s.err.designated && (s.err.coreA == k || s.err.coreB == k) then
    s.parapetKill.modErr (fun e => { e with designated := false, arm := false, ha := true, hb := true })
  else s

/-- A core is fenced (R380): gangs still on it are discarded without a record and re-queued. -/
def State.fenceCore (s : State) (k : Nat) : State :=
  let s := s.modCore k (fun c => { c with fenced := true })
  let s := (s.sched.gangs.filter (fun g => !g.committed && g.members.any (fun m => m.core == k && !m.ended))).foldl
    (fun s g => s.discard g.id (.requeue false)) s
  s.undesignate k

/-- A Girder is fenced (R380): gangs holding its banks or buffers are discarded and re-queued, and after its return to
service it grants its lease as though LOCAL 3 had held it last (R273). DESIGN CHOICE (assumption 129): a holder that is not
discarded has its lease lapsed. -/
def State.fenceGirder (s : State) (n : Nat) : State :=
  let own := (s.girder n).owner
  let s := match (s.girder n).holder with
    | some k => s.modStrand k (fun t => { t with lease := .lapsed })
    | none => s
  let s := s.modGirder n (fun g => { g with fenced := true, queue := [], holder := none, prev := 3, lcnt := 0 })
  let s := { s with upsets := s.upsets.filter (fun u => match u.place with
    | .girder c _ => c != n
    | _ => true) }
  (s.sched.gangs.filter (fun g => !g.committed && own.any (fun o => o == some g.id))).foldl
    (fun s g => s.discard g.id (.requeue false)) s

/-- A page is poisoned (R381). -/
def State.poison (s : State) (pa : Nat) : State :=
  s.modErr (fun e => { e with poisoned := if e.poisoned.contains (pa / 4096) then e.poisoned
                                          else pa / 4096 :: e.poisoned })

/-- A line could not leave its cache: its bytes, or the page that they belong to, cannot be used (R381). -/
def State.lose (s : State) (pa : Nat) : State := s.modErr (fun e => { e with lost := (e.lost.1 + 1, pa) })

/-- Translations derived from a table page leave every TLB and walk cache (R414). -/
def State.dropDerived (s : State) (page : Nat) : State :=
  let bad (ts : List Nat) : Bool := ts.any (fun t => t / 4096 == page / 4096)
  { s with
    cores := s.cores.map (fun (c : Core) => { c with tlb := c.tlb.filter (fun e => !bad e.tables) })
    clusters := s.clusters.map (fun (c : Cluster) => { c with tlb := c.tlb.filter (fun e => !bad e.tables) })
    doms := s.doms.map (fun (k : Stack) => { k with
      walkCache := k.walkCache.filter (fun p => !bad (p.table :: p.tables)) }) }

/-- Sharer groups that the directory names for a table page, all of them when the record cannot be read (R406,
R414). -/
def State.sharers (s : State) (page : Nat) : Nat :=
  let k := s.stack (homeStack page)
  let a := k.dirBase + 8 * ((page - k.poolBase) / 4096)
  if s.badEntry a then 2 ^ 64 - 1 else mnat s.home a 8

/-- A scheduler context is fenced with TRANSLATION_POISON and its record written (R414). -/
def State.poisonCtx (page : Nat) (s : State) (c : Nat) : State :=
  let s := s.putRecord c (fun seq =>
    recordBytes 0x07 0 0 7 c 0 0 0xFFFFFFFF 0 page 0 0 0 0 0 0 s.devTime seq 0 0)
  (s.fenceCtx c).msixCtx c

/-- The page of a table is poisoned and every context that shares it, but one, is fenced (R414). A page that was
withdrawn before names no further context. -/
def State.poisonTable (s : State) (page except : Nat) : State :=
  if s.poisonedPa page then s else
  let m := s.sharers page
  let s := s.poison page
  let cs := (List.range 1024).filter (fun c => c != except && (s.ctx c).configured
    && (s.xidRec (s.ctx c).xid).valid && bit m (s.xidRec (s.ctx c).xid).group)
  (cs.foldl (State.poisonCtx page) s).dropDerived page

/-- What an access of the scheduler or of a fixed engine found: a table page fences the contexts that share it, and the one
that it was accessed for; a page of memory is poisoned, that one context fenced and its record written (R381, R414). -/
def State.contain (s : State) (page ctx : Nat) (table : Bool) : State :=
  if table then
    let s := s.poisonTable page ctx
    if (s.ctx ctx).fenced then s else State.poisonCtx page s ctx
  else
    let s := (s.poison page).putRecord ctx (fun seq =>
      recordBytes 0x08 4 0 7 ctx 0 0 0xFFFFFFFF 0 page 0 0 0 0 0 0 s.devTime seq 0 0)
    (s.fenceCtx ctx).msixCtx ctx

/-- A weight-store region is lost: not ready, and placed tasks that declare it are discarded (R381). -/
def State.loseRegion (s : State) (die m keep : Nat) : State :=
  let s := s.modDie die (fun d => { d with ready := setFld d.ready m 1 0 })
  (s.sched.gangs.filter (fun g => !g.committed && g.id != keep && bit g.task.wst m
      && g.members.any (fun x => dieOf (clusterOf x.core) == die))).foldl
    (fun s g => s.discard g.id (.requeue false)) s

/-- The fault record of a strand on core k (R384). -/
def State.faultRecord (s : State) (k : Nat) (t : Strand) (pctx relaunch : Bool) (f : FInfo) : State :=
  let area := if pctx then 0 else t.task.ctx
  let flags := b2n (f.precise && !f.code.imprecise) + 2 * b2n f.rewritten + 4 * b2n (t.commit == .done)
    + 8 * b2n pctx + 16 * b2n relaunch
  let aux := match f.aux with
    | some a => a
    | none => if t.task.src = 2 ∨ t.task.src = 3 then t.task.frame else 0
  s.putRecord area (fun seq =>
    recordBytes f.code.num f.cause flags f.engine t.task.ctx k t.member f.text t.image f.addr f.data f.kslot
      f.kpos f.lane f.cstep aux s.devTime seq f.ckind f.cqueue)

/-- The place of consumption makes a MEMORY_UE a core hardware fault (Table 18.3 rows 1 and 2). -/
def FInfo.coreHardware (f : FInfo) : Bool :=
  f.code == .memoryUe && (f.cause == 1 || f.cause == 2)

/-- The faulted strand ends in its post-commit region: the committed and held effects stay (R370). -/
def State.endFaulted (s : State) (k code : Nat) : State :=
  let id := (s.core k).ord.gang
  (s.clearStrand k).memberEnd id k code false

/-- The fence of Table 18.2 after a fault of core k in context c. -/
def State.applyFence (s : State) (k c : Nat) (t : Strand) (f : FInfo) : State :=
  if f.code = .checkerMismatch then
    if t.task.mism ≠ 0 ∨ t.commit = .done then s.fenceCore k else s
  else if f.coreHardware then s.fenceCore k
  else if f.code = .memoryUe ∧ f.cause = 6 then s.fenceGirder (clusterOf k)
  else if f.code = .memoryUe ∧ f.cause = 5 then s.loseRegion (dieOf (clusterOf k)) (f.addr / 0x200000) t.gang
  else if f.code = .memoryUe ∧ f.cause = 4 then (s.poison f.addr).fenceCtx c
  else if f.code = .translationPoison then (s.poisonTable f.addr c).fenceCtx c
  else s.fenceCtx c

/-- What becomes of the task that raised a fault (Table 18.1, R380, R390). -/
def FInfo.fate (f : FInfo) (t : Strand) (k : Nat) : Fate :=
  if f.code = .checkerMismatch then
    if t.task.mism = 0 then .relaunch t.member k else .requeue false
  else if f.code = .memoryUe ∧ f.cause ∈ [1, 2, 5, 6] then .requeue false
  else .faulted f.code.num

/-- A fate that re-queues. -/
def Fate.requeues : Fate → Bool
  | .requeue _ | .relaunch _ _ => true
  | _ => false

/-- A fault in an ordinary strand on core k (R379). -/
def State.faultOrd (s : State) (k : Nat) (f : FInfo) : State :=
  let t := (s.core k).ord
  let post := t.commit == .done
  let fate := f.fate t k
  let s1 := if post then s.endFaulted k f.code.num else s.discard t.gang fate
  let s2 := s1.faultRecord k t false (fate.requeues && !post) f
  (s2.applyFence k t.task.ctx t f).msixCtx t.task.ctx

/-- A fault in a Parapet context: the outputs latch and the task ends on both cores (R384, R392, R396). -/
def State.faultPar (s : State) (k : Nat) (f : FInfo) : State :=
  let t := (s.core k).par
  let s := (s.latchOutputs.parapetKill).faultRecord k t true false f
  let s := if f.coreHardware then s.fenceCore k
    else if f.code = .memoryUe ∧ f.cause = 4 then s.poison f.addr
    else if f.code = .memoryUe ∧ f.cause = 5 then s.loseRegion (dieOf (clusterOf k)) (f.addr / 0x200000) 0
    else if f.code = .memoryUe ∧ f.cause = 6 then s.fenceGirder (clusterOf k)
    else if f.code = .translationPoison then (s.poisonTable f.addr 0).fenceCtx 0
    else if f.code = .checkerMismatch ∧ t.commit = .done then s.fenceCore k
    else s
  s.msixCtx 0

end Sys2Proof.Machine
end

