-- ==== Sys2Proof/Machine/Ops.lean ====
section
/-! DEFINITION. The shared operations of every word: retiring, stalling, taking a fault, and the queues of a strand
(R80, R88, R136 to R142, R379). -/

namespace Sys2Proof.Machine

/-- Taking a fault (R379): the strand of the acting core ends with its gang, the record is written, the fence of
Table 18.2 applied and the message sent. There is no return from a fault: the task has ended, or is launched
again from its start (R390). -/
def takeFault (f : FInfo) (s : State) : State :=
  if (s.core s.cur).inPar then s.faultPar s.cur f else s.faultOrd s.cur f

/-- A sequencer after one of its words (R80, R88): past the word, or at the target of a transfer whose second
delay slot it was. -/
def EngSt.step (x : EngSt) (now : Nat) : EngSt :=
  { x with
    pc := if x.slots = 1 ∧ x.taken = true then x.target else x.pc + 4
    walk := x.walk + 1
    slots := x.slots - 1
    next := now + 1 }

/-- The word of an engine has issued (R80, R386). -/
def State.retire (s : State) (e : Eng) : State :=
  s.modSt (fun t => { (t.modEng e (fun x => x.step s.now)) with stall := 0, issued := true })

/-- A transfer has issued: its two delay slots follow (R88). -/
def State.jump (s : State) (e : Eng) (taken : Bool) (target : Nat) : State :=
  s.modSt (fun t => { (t.modEng e (fun x =>
    { x with pc := x.pc + 4, walk := x.walk + 1, slots := 2, taken := taken, target := target, next := s.now + 1 }))
    with stall := 0, issued := true })

/-- The state a word that did not complete leaves. -/
def Exc.state (e : Eng) (s : State) : Exc → State
  | .stall => s
  | .hold s' => s'
  | .miss r => s.askWalk { r with eng := e, text := (s.st.eng e).pc }
  | .waits h e => s.modGang s.st.gang (fun g =>
      if g.wants.any (fun w => w.1 == h && w.2.1 == e) then g else { g with wants := (h, e, s.free) :: g.wants })
  | .cycle v => s.discard v (.requeue (((s.gang v).map (fun g => decide (g.task.disc < 4))).getD true))
  | .partly s' f => takeFault { f with engine := engNo e } s'
  | .fault f =>
    takeFault { f with engine := engNo e, text := if f.text = 0xFFFFFFFF then (s.st.eng e).pc else f.text } s

/-- The outcome of a word whose effect is computed: a stall and a fault of the device are next states. -/
def outcome (e : Eng) (s : State) (r : Res State) : Host.Outcome State Fault Refusal :=
  match r with
  | .ok s' => .next s'
  | .error x => .next (x.state e s)

/-- A word that may issue at any time of the strand's life. -/
def word (e : Eng) (s : State) (r : Res State) : Host.Outcome State Fault Refusal :=
  outcome e s (r.map (fun s' => s'.retire e))

/-- A word that may not issue in the post-commit region (R370). -/
def wordPre (e : Eng) (s : State) (r : Res State) : Host.Outcome State Fault Refusal :=
  if s.st.commit = .done then outcome e s (raiseF .illegalOperand) else word e s r

/-- A guarded word: a guard that fails leaves no effect (R56). -/
def guarded (g : Guard) (s : State) (r : Res State) : Res State := if s.guardOk g then r else .ok s

/-- A guarded word that may not issue in the post-commit region: where its guard fails it has no effect there either, and
raises no fault (R56, R370). -/
def guardedPre (g : Guard) (s : State) (r : Res State) : Host.Outcome State Fault Refusal :=
  if s.guardOk g then wordPre .s s r else word .s s (.ok s)

/-- Queues that S, V and M can push no more (R137): by data queue, 6 for fq. -/
def State.producerDone (s : State) (q : Nat) : Bool :=
  let k := s.cur
  let t := s.st
  match q with
  | 3 | 5 => s.idle k .v
  | 4 => s.idle k .m && t.deltaOut == 0
  | _ => t.ended

/-- A data queue of the acting strand. -/
def State.queue (s : State) (q : Nat) : List (Option Dbl) := lget s.st.qs.q q []

/-- A data queue replaced. -/
def State.putQueue (s : State) (q : Nat) (l : List (Option Dbl)) : State :=
  s.modQs (fun x => { x with q := x.q.set q l })

/-- An entry pushed, or a stall while the queue is full (R136, R137). -/
def State.push (s : State) (q : Nat) (x : Option Dbl) : Res State :=
  if 16 ≤ (s.queue q).length then .error .stall
  else .ok (s.putQueue q (s.queue q ++ [x]))

/-- Width of a queue type code (Table 7.2). -/
def qWidth (c : Nat) : Nat := if c = 15 then 64 else (NTy.ofCode 0 c).width

/-- Conversion of a popped entry from source to sink type (R139): value and flags. -/
def qConvert (src snk : Nat) (x : Dbl) : Dbl × Nat :=
  if src = snk ∨ src = 15 ∨ snk = 15 then (x, 0) else
  let (c, f) := convert (x.toNat % 2 ^ qWidth src) (NTy.ofCode 0 src) (NTy.ofCode 0 snk) .rne false
  let v := match NTy.ofCode 0 snk with
    | .int w true => wrapInt 64 (sextInt w c)
    | _ => c
  (BitVec.ofNat 64 v, f)

/-- The engine that pops a data queue (Table 7.1). -/
def qTaker (q : Nat) : Eng := if q = 0 then .v else if q = 1 ∨ q = 5 then .m else if q = 2 then .c else .s
/-- The engine that pushes a data queue (Table 7.1). -/
def qGiver (q : Nat) : Eng := if q = 3 ∨ q = 5 then .v else if q = 4 then .m else .s

/-- The front entry of a data queue, converted (R137, R139, R149). -/
def State.pop (s : State) (q : Nat) : Res (Dbl × State) :=
  match s.queue q with
  | [] => if s.producerDone q then raiseF .queueUnderflow else .error .stall
  | none :: _ => raiseF .queueUnderflow
  | some x :: l =>
    let (v, f) := qConvert (lget s.st.qs.src q 15) (lget s.st.qs.snk q 15) x
    .ok (v, ((s.putQueue q l).raise f).join (qTaker q) (qGiver q))

/-- n entries popped in order, in one cycle (R62, R137). -/
def State.popN (s : State) (q : Nat) : Nat → Res (List Dbl × State)
  | 0 => .ok ([], s)
  | n + 1 => do
    let (x, s) ← s.pop q
    let (l, s) ← s.popN q n
    pure (x :: l, s)

/-- Index of an engine's outcome queue: S, V, M, C. -/
def oqIdx (e : Eng) : Nat := engNo e

/-- Outcome queue of an engine. -/
def State.oq (s : State) (e : Eng) : List Bool := lget s.st.qs.oq (oqIdx e) []

/-- Outcome queue replaced. -/
def State.putOq (s : State) (e : Eng) (l : List Bool) : State :=
  s.modQs (fun x => { x with oq := x.oq.set (oqIdx e) l })

/-- No agent that feeds an outcome queue can push again (R91). -/
def State.oqDone (s : State) : Eng → Bool
  | .s => s.idle s.cur .v
  | .v => s.st.halted
  | _ => s.st.halted && s.idle s.cur .v

/-- The front of an outcome queue (R89, R91). -/
def State.popOq (s : State) (e : Eng) : Res (Bool × State) :=
  match s.oq e with
  | [] => if s.oqDone e then raiseF .queueUnderflow else .error .stall
  | b :: l => .ok (b, ((s.putOq e l).join e .s).join e .v)

/-- An outcome pushed into the queues of the engines named, all in one cycle, or a stall (R87, R97). -/
def State.pushOq (s : State) (es : List Eng) (b : Bool) : Res State :=
  if es.any (fun e => decide (16 ≤ (s.oq e).length)) then .error .stall
  else .ok (es.foldl (fun s e => s.putOq e (s.oq e ++ [b])) s)

/-- An operation that names a token issues under it: a stall at 63 outstanding (R110), and until the cycle ends in which a
wait has found the token clear (R111). -/
def State.tokIssue (s : State) (by' : Eng) (w : Nat) : Res State :=
  if 63 ≤ s.st.tokCount w ∨ s.st.cyc.waited.getLsbD w = true then .error .stall else .ok (s.modSt (fun t => t.tokUp by' w))

/-- The next two own words after the one at pc: offset of the second, if both exist (R53, R88). -/
def State.slot2 (s : State) (e : Eng) : Option Nat :=
  let text := s.text s.cur
  match ownFrom text e ((s.st.eng e).pc + 4) with
  | none => none
  | some a => ownFrom text e (a + 4)

/-- Target of a PC-relative transfer, precise ILLEGAL_OPERAND outside the text (R85, R90). -/
def State.relTarget (s : State) (e : Eng) (imm : Nat) : Res Nat :=
  let t : Int := ((s.st.eng e).pc : Int) + 4 * sextInt 21 imm
  if t < 0 ∨ (4 * (s.text s.cur).length : Nat) ≤ t then raiseF .illegalOperand else .ok t.toNat

/-- Decode checks of a transfer: not in a delay slot, and its own slots inside the text (R53, R88). -/
def State.slotsOk (s : State) (e : Eng) : Res Nat :=
  if (s.st.eng e).slots ≠ 0 then raiseF .delaySlot else
  match s.slot2 e with
  | none => raiseF .illegalEncoding
  | some a => .ok a

end Sys2Proof.Machine
end

