-- ==== Sys2Proof/Machine/Access.lean ====
section
/-! DEFINITION. Windows, access checks, published buffers, apertures, caches, releases and acquires
(spec/06 R127, spec/09 R185 and R188, spec/10 R207, spec/11). -/

namespace Sys2Proof.Machine

/-- Reads, plain writes, and atomics with CAS. -/
inductive Acc where
  | rd | wr | amo
  deriving DecidableEq, Repr, Inhabited

/-- Parts of the address space (R224). -/
inductive Window where
  | wst (off : Nat)
  /-- Own or peer scratchpad: LOCAL of the core, none for the own window, and offset. -/
  | spad (peer : Option Nat) (off : Nat)
  /-- The scratchpad region outside every window. -/
  | spadGap
  | tile (off : Nat)
  | hole
  | translated
  deriving DecidableEq, Repr, Inhabited

/-- Base addresses (R185, R207, R225). -/
def wstBase : Nat := 0x7E0000000000
def spadBase : Nat := 0x7F0000000000
def peerBase : Nat := 0x7F0001000000
def tileBase : Nat := 0x7F8000000000

/-- The window of an address (R224); addresses above 48 bits count as holes (Table 6.3 check 2). -/
def window (va : Nat) : Window :=
  if 2 ^ 48 ≤ va then .hole
  else if va < wstBase ∨ 0x800000000000 ≤ va then .translated
  else if va < wstBase + 0xA000000 then .wst (va - wstBase)
  else if va < spadBase then .hole
  else if va < spadBase + 0x80000 then .spad none (va - spadBase)
  else if peerBase ≤ va ∧ va < peerBase + 0x200000 then
    .spad (some ((va - peerBase) / 0x80000)) ((va - peerBase) % 0x80000)
  else if va < spadBase + 0x100000000 then .spadGap
  else if tileBase ≤ va ∧ va < tileBase + 0x4000000 then .tile (va - tileBase)
  else .hole

/-- Bytes of a scratchpad below the carve of a core (R186). -/
def State.carveBase (s : State) (k : Nat) : Nat := 0x80000 - 4096 * (s.cluster (clusterOf k)).carve

/-- Check 3 of Table 6.3 for the scratchpad windows (R185, R186, R188): the core and offset reached. -/
def State.spadTarget (s : State) (k : Nat) (peer : Option Nat) (off : Nat) (va : Nat) : Res Target :=
  let bad : Res Target := .error (.fault { code := .scratchBounds, addr := va })
  let k' := match peer with
    | none => k
    | some j => 4 * clusterOf k + j
  if s.carveBase k' ≤ off then bad
  else if k' = k then (if off < (s.strand k).allot then .ok (.spad k off) else bad)
  else
    let o := (s.core k').ord
    if !(s.core k).inPar && o.live && o.gang == (s.strand k).gang && decide (off < o.allot) then .ok (.spad k' off)
    else bad

/-- Pages of a size class (Table 10.1). -/
def clsUnits (c : Nat) : Nat := 4 ^ c

/-- The access-table entry that covers a byte of the tile window (R208). -/
def accFind (acc : List AccEntry) (core unit : Nat) : Option AccEntry :=
  acc.find? (fun e => e.core == core && decide (e.unit ≤ unit) && decide (unit < e.unit + clsUnits e.cls))

/-- Check 3 and the write right of the tile window (R207); an entry that TRET has given back admits accesses until it is
removed (R217). -/
def State.tileTarget (s : State) (k off va : Nat) (a : Acc) : Res Target :=
  let core := off / 2 ^ 19
  let unit := fld off 12 7
  if (s.cluster (clusterOf core)).fenced && clusterOf core != clusterOf k then
    .error (.fault { code := .scratchBounds, addr := va })
  else
  match accFind (s.strand k).acc core unit with
  | none => .error (.fault { code := .scratchBounds, addr := va })
  | some e =>
    if a ≠ .rd ∧ e.write = false then .error (.fault { code := .permission, addr := va })
    else .ok (.tile core (off % 2 ^ 19))

/-- Bytes of an element type code times two: n4 holds two elements a byte. -/
def halfBytes : Nat → Nat
  | 4 | 5 => 4
  | 6 => 1
  | 8 => 8
  | _ => 2

/-- Bytes of an aperture (R244): dense, row by row. -/
def apBytes (d : ApDesc) : Nat := if d.kind = 1 then d.rows * d.cols * halfBytes d.ty / 2 else d.rows * d.cols * 4

/-- The aperture of a context that holds an address. -/
def Ctx.apAt (c : Ctx) (va : Nat) : Option Aperture :=
  c.aps.find? (fun a => decide (a.desc.abase ≤ va) && decide (va < a.desc.abase + apBytes a.desc))

/-- An extent lies in the gang's write set. -/
def inWset (g : Option Gang) (h e : Nat) : Bool :=
  match g with
  | none => false
  | some g => g.wset.any (fun w => w.buf == h && w.ext == e)

/-- The backing that a read by the strand on core k takes (R238, R240, R242): pin, own shadow, or current. -/
def State.readSide (s : State) (k : Nat) (b : PubBuf) (e : Nat) : Bool :=
  let t := s.strand k
  match t.pins.find? (fun p => p.buf == b.handle) with
  | some p => lget p.sel e false
  | none =>
    let cur := lget b.sel e false
    if inWset (s.gang t.gang) b.handle e then !cur else cur

/-- Gangs that hold up a first write of an extent (R241): writers of its shadow and holders of a pin on it. -/
def State.blockers (s : State) (me ctx h e : Nat) (side : Bool) : List Nat :=
  let ws := s.allGangs.filter (fun g => g.id != me && g.task.ctx == ctx &&
    (inWset (some g) h e || g.members.any (fun m => !m.ended && (s.strand m.core).pins.any
      (fun p => p.buf == h && lget p.sel e false == side))))
  ws.map (·.id)

/-- Gangs that a gang waits for now, with a first write it has begun to wait for (R241). -/
def State.waitsFor (s : State) (g : Gang) : List Nat :=
  g.wants.flatMap (fun w => match (s.ctx g.task.ctx).buf w.1 with
    | none => []
    | some b => s.blockers g.id g.task.ctx w.1 w.2.1 (!(lget b.sel w.2.1 false)))

/-- Gangs reached from a list of gangs in n rounds. -/
def waitReach (next : Nat → List Nat) : Nat → List Nat → List Nat
  | 0, l => l
  | n + 1, l => waitReach next n (l ++ (l.flatMap next).filter (fun x => !l.contains x))

/-- The task of a gang is pinned (R362). -/
def Gang.pinned (g : Gang) : Bool := decide (4 ≤ g.task.disc)

/-- The gang of a list that began to wait last. -/
def lastEntrant (l : List Gang) : Option Gang :=
  let since (g : Gang) : Nat := (g.wants.map (fun w => w.2.2)).foldl max 0
  l.find? (fun g => l.all (fun x => decide (since x ≤ since g)))

/-- The first write of a gang to an extent waits, or closes a cycle: of the gangs that wait on each other, the last one that
is not pinned is discarded, and the last one where all are pinned (R241, R362). The Parapet's gang never is (R398). -/
def State.waitGangs (s : State) (g : Gang) (h e : Nat) (ids : List Nat) : Exc :=
  let gs := s.allGangs
  let next (x : Nat) : List Nat := if x = g.id then ids ++ s.waitsFor g else ((s.gang x).map s.waitsFor).getD []
  let reach := waitReach next gs.length
  let cyc := gs.filter (fun y => y.id != 0 && (reach ids).contains y.id && (reach (next y.id)).contains g.id)
  if (reach ids).contains g.id = false then .waits h e
  else if g.id ≠ 0 ∧ g.pinned = false then .cycle g.id
  else
    match lastEntrant (cyc.filter (fun y => !y.pinned)) with
    | some y => .cycle y.id
    | none =>
      if g.id ≠ 0 then .cycle g.id else
      match lastEntrant cyc with
      | some y => .cycle y.id
      | none => .waits h e

/-- A write by core k to an extent of a published buffer: the physical base of its shadow, with the extent in the
write set (R238, R241, R242). -/
def State.writeExtent (s : State) (k : Nat) (b : PubBuf) (e : Nat) (va : Nat) : Res (Nat × State) :=
  let t := s.strand k
  let side := !(lget b.sel e false)
  match s.gang t.gang with
  | none => .error (.fault { code := .permission, addr := va })
  | some g =>
    if g.members.any (fun m => !m.ended && (s.strand m.core).pins.any (fun p => p.buf == b.handle)) then
      .error (.fault { code := .permission, addr := va })
    else if inWset (some g) b.handle e then .ok (extPhys b.desc side e, s)
    else if 4096 ≤ g.wset.length then .error (.fault { code := .illegalOperand, addr := va })
    else
      match s.blockers g.id g.task.ctx b.handle e side with
      | [] =>
        .ok (extPhys b.desc side e, s.modGang g.id (fun g => { g with
          wset := ⟨b.handle, e⟩ :: g.wset, wants := g.wants.filter (fun w => w.1 != b.handle || w.2.1 != e) }))
      | ids => .error (s.waitGangs g b.handle e ids)

/-- A bus address as a context's outbound accesses reach it (R404, R423): unchanged without a PASID, or through the
address translation cache, which an ATS request fills. -/
def State.busTarget (s : State) (ctx bus va : Nat) (write : Bool) : Res (Target × State) :=
  match s.atsFind ctx bus with
  | none => .error (.fault { code := .translation, addr := va })
  | some (a, w, s') =>
    if write = true ∧ w = false then .error (.fault { code := .permission, addr := va }) else .ok (.bus a, s')

/-- Checks 4 and 5 of Table 6.3 on a translation of a plain word (R127, R239, R412, R413). -/
def State.leafTarget (s : State) (ctx : Nat) (e : TlbEntry) (va : Nat) (a : Acc) : Res (Target × State) :=
  let pa := e.pa va
  if e.c then .error (.fault { code := .permission, addr := va })
  else if a ≠ .rd ∧ e.w = false then .error (.fault { code := .permission, addr := va })
  else if a ≠ .rd ∧ e.mig = true then .error .stall
  else if pcieBase ≤ pa then s.busTarget ctx (pa - pcieBase) va (a != .rd)
  else if a = .wr then .error (.fault { code := .permission, addr := va })
  else if s.poisonedPa pa then .error (.fault { code := .memoryUe, cause := 4, addr := pa })
  else .ok (.mem pa, s)

/-- A region of the weight store may be read by the strand on core k (R225, R228). -/
def State.regionOk (s : State) (k off : Nat) : Bool :=
  bit (s.strand k).task.wst (off / 0x200000) && bit (s.die (dieOf (clusterOf k))).ready (off / 0x200000)

/-- Table 6.3 from check 2 on, for a word of core k: where the access goes. -/
def State.resolve (s : State) (k va : Nat) (a : Acc) : Res (Target × State) :=
  match window va with
  | .hole => .error (.fault { code := .translation, addr := va })
  | .spadGap => .error (.fault { code := .scratchBounds, addr := va })
  | .spad p off => do pure (← s.spadTarget k p off va, s)
  | .tile off => do
    let t ← s.tileTarget k off va a
    pure (t, ← s.peerWake (off / 2 ^ 19))
  | .wst off =>
    if a ≠ .rd ∨ s.regionOk k off = false then .error (.fault { code := .permission, addr := va })
    else .ok (.wst (dieOf (clusterOf k)) off, s)
  | .translated =>
    let c := s.ctx (s.strand k).task.ctx
    match c.bufAt va with
    | some (b, e, off) =>
      if a = .amo then .error (.fault { code := .permission, addr := va })
      else if a = .rd then
        let pa := extPhys b.desc (s.readSide k b e) e + off
        if s.poisonedPa pa then .error (.fault { code := .memoryUe, cause := 4, addr := pa }) else .ok (.mem pa, s)
      else do
        let (lo, s') ← s.writeExtent k b e va
        if s.poisonedPa (lo + off) then .error (.fault { code := .memoryUe, cause := 4, addr := lo + off })
        else .ok (.mem (lo + off), s')
    | none =>
    match c.apAt va with
    | some ap =>
      if a = .rd then .ok (.ap (s.strand k).task.ctx ap.idx (va - ap.desc.abase), s)
      else .error (.fault { code := .permission, addr := va })
    | none => do
      let (e, s') ← s.xlate k va
      s'.leafTarget (s.strand k).task.ctx e va a

/-! ### Apertures -/

/-- The fault of an access whose source cannot be read; va is the address accessed. -/
def SrcBad.fault (va : Nat) : SrcBad → Exc
  | .walk => .fault { code := .translation, addr := va }
  | .right => .fault { code := .permission, addr := va }
  | .table p => .fault { code := .translationPoison, addr := p }
  | .memory pa => .fault { code := .memoryUe, cause := 4, addr := pa }

/-- n bytes that an aperture of a context reads at a physical address: one of the PCIe range goes through the context's
translations (R404, R423). -/
def State.apNat (s : State) (ctx pa n : Nat) : Except SrcBad Nat :=
  if pa < pcieBase then .ok (mnat s.home pa n) else
  match s.atsFind ctx (pa - pcieBase) with
  | some (b, _, _) => .ok (mnat s.host.mem b n)
  | none => .error .walk

/-- A source element of an aperture: its code, and the bytes it was read from. -/
def State.apSource (s : State) (ctx : Nat) (d : ApDesc) (i j : Nat) : Except SrcBad (Nat × Nat × Nat) := do
  let h := halfBytes d.ty
  let n := if h = 1 then 1 else h / 2
  let pa ← s.agentPhys ctx (d.sbase + i * d.pitch + j * h / 2) false
  let x ← s.apNat ctx pa n
  pure (if h = 1 then fld x (4 * (j % 2)) 4 else x, pa, n)

/-- Elements of a block (Table 7.6 BLK). -/
def blkSize (b : Nat) : Nat := 16 * 2 ^ b

/-- The scale word of an aperture element and its address (Table 11.7): none without scales. DESIGN CHOICE (assumption 12): the
words stand row by row, and a block runs along a row of the source. -/
def State.apScale (s : State) (ctx : Nat) (d : ApDesc) (i j : Nat) : Except SrcBad (Option (Nat × Nat)) :=
  if d.smode = 0 ∨ d.kind ≠ 2 then .ok none else do
  let idx := if d.smode = 2 then 0 else i * (d.cols / blkSize d.blk) + j / blkSize d.blk
  let pa ← s.agentPhys ctx (d.scales + 2 * idx) false
  let x ← s.apNat ctx pa 2
  pure (some (x, pa))

/-- Aperture element (i, j) and the bytes it came from (Table 11.7). -/
def State.apElem (s : State) (ctx : Nat) (d : ApDesc) (i j : Nat) : Except SrcBad (Nat × List (Nat × Nat)) := do
  if d.kind = 1 then
    let (c, r) ← s.apSource ctx d j i
    pure (c, [r])
  else
    let (c, r) ← s.apSource ctx d i j
    let sw ← s.apScale ctx d i j
    pure ((dequantize c (elemTy d.ty (sw.map Prod.fst)) (sw.map Prod.fst)).1, r :: (sw.map (fun p => (p.2, 2))).toList)

/-- Columns of an aperture. -/
def apCols (d : ApDesc) : Nat := if d.kind = 1 then d.rows else d.cols

/-- Runs of bytes, each once and joined to the run before it where it goes on or repeats that. -/
def joinRuns (l : List (Nat × Nat)) : List (Nat × Nat) :=
  l.foldl (fun acc r => match acc with
    | (a, n) :: t =>
      if a + n = r.1 then (a, n + r.2) :: t
      else if acc.any (fun x => decide (x.1 ≤ r.1) && decide (r.1 + r.2 ≤ x.1 + x.2)) then acc else r :: acc
    | [] => [r]) []

/-- Lines of a list of runs, each once. -/
def linesOf (l : List (Nat × Nat)) : List Nat :=
  (l.flatMap (fun r => (List.range ((r.1 + r.2 - 1) / 128 - r.1 / 128 + 1)).map (· + r.1 / 128))).foldl
    (fun acc a => if acc.contains a then acc else a :: acc) []

/-- The pages of the PCIe range that runs of bytes lie in are in the address translation cache (R423). -/
def State.atsFill (s : State) (ctx : Nat) (l : List (Nat × Nat)) : State :=
  (l.filter (fun r => decide (pcieBase ≤ r.1))).foldl (fun s r => match s.atsFind ctx (r.1 - pcieBase) with
    | some (_, _, s) => s
    | none => s) s

/-- The tile of 64 by 64 elements that holds element (i, j), built from the source at its home (R245); errors of the lines
read are corrected there, or consumed (R381, R387). -/
def State.buildTile (s : State) (ctx : Nat) (a : Aperture) (idx : Nat) : Except SrcBad (ApTile × State) := do
  let w := apCols a.desc / 64
  let l ← (List.range 4096).mapM (fun n => s.apElem ctx a.desc (64 * (idx / w) + n / 64) (64 * (idx % w) + n % 64))
  let src := joinRuns (l.flatMap Prod.snd)
  let s ← (linesOf src).foldlM (fun s x => match s.homeScrub (128 * x) with
    | .ok s => Except.ok s
    | .error _ => Except.error (SrcBad.memory (128 * x))) s
  pure ({ idx := idx, bytes := l.map Prod.fst, src := src }, s.atsFill ctx src)

/-- Bytes of an aperture element, doubled. -/
def apHalf (d : ApDesc) : Nat := if d.kind = 1 then halfBytes d.ty else 8

/-- A built tile kept by its aperture. -/
def State.keepTile (s : State) (ctx i : Nat) (t : ApTile) : State :=
  s.modCtx ctx (fun c => { c with aps := c.aps.map (fun a => if a.idx = i then { a with tiles := t :: a.tiles } else a) })

/-- The element an aperture's tile holds, with the tile built if need be. -/
def State.apRead (s : State) (ctx : Nat) (a : Aperture) (n : Nat) : Except SrcBad (Nat × State) :=
  let w := apCols a.desc
  let i := n / w
  let j := n % w
  let idx := i / 64 * (w / 64) + j / 64
  let pos := 64 * (i % 64) + j % 64
  match a.tiles.find? (fun t => t.idx == idx) with
  | some t => .ok (lget t.bytes pos 0, s)
  | none => do
    let (t, s) ← s.buildTile ctx a idx
    pure (lget t.bytes pos 0, s.keepTile ctx a.idx t)

/-- An aperture of a context by its index. -/
def State.aper (s : State) (ctx i : Nat) : Except SrcBad Aperture :=
  match (s.ctx ctx).aps.find? (fun a => a.idx == i) with
  | some a => .ok a
  | none => .error .walk

/-- The byte at an offset of an aperture. -/
def State.apByte (s : State) (ctx i off : Nat) : Except SrcBad (Byte × State) := do
  let a ← s.aper ctx i
  let h := apHalf a.desc
  if h = 1 then
    let (x, s) ← s.apRead ctx a (2 * off)
    let a ← s.aper ctx i
    let (y, s) ← s.apRead ctx a (2 * off + 1)
    pure (BitVec.ofNat 8 (x + 16 * y), s)
  else
    let (x, s) ← s.apRead ctx a (off / (h / 2))
    pure (BitVec.ofNat 8 (x / 2 ^ (8 * (off % (h / 2)))), s)

/-- A tile was built from a byte of a range. -/
def ApTile.from (t : ApTile) (pa n : Nat) : Bool :=
  t.src.any (fun r => decide (r.1 < pa + n) && decide (pa < r.1 + r.2))

/-- A tile was built from a dirty byte of a line. -/
def ApTile.fromDirty (t : ApTile) (l : Line) : Bool :=
  (List.range 128).any (fun i => l.dirty.getLsbD i && t.from (l.key + i) 1)

/-- The tiles of every aperture changed. -/
def State.mapTiles (s : State) (f : List ApTile → List ApTile) : State :=
  s.modSched (fun d => { d with ctxs := d.ctxs.map (fun (c : Ctx) =>
    if c.aps.isEmpty then c else { c with aps := c.aps.map (fun a => { a with tiles := f a.tiles }) }) })

/-- Tiles built from bytes that changed at the home, by one of the causes of R245, are dropped. -/
def State.touch (s : State) (pa n : Nat) : State := s.mapTiles (fun ts => ts.filter (fun t => !t.from pa n))

/-- Tiles built from the dirty bytes of a line that a release has written are dropped (R245). -/
def State.touchLine (s : State) (l : Line) : State := s.mapTiles (fun ts => ts.filter (fun t => !t.fromDirty l))

/-- Source bytes of tiles changed at the home when a line of a cluster's slice left it with no release: the tiles stay
until a release of that cluster (R245). -/
def State.stain (s : State) (n : Nat) (l : Line) : State :=
  s.mapTiles (fun ts => ts.map (fun t => if t.fromDirty l then { t with drained := n :: t.drained } else t))

/-- A release at .stack or above carries what has left its cluster's slice (R245). -/
def State.unstain (s : State) (n : Nat) : State := s.mapTiles (fun ts => ts.filter (fun t => !t.drained.contains n))

/-- Bytes written at the home by an agent whose writes invalidate apertures (R245). -/
def State.homeWrite (s : State) (pa : Nat) (l : List Byte) : State := (s.homePuts pa l).touch pa l.length

/-! ### Lines -/

/-- Keys of cached lines: physical addresses, and aperture lines above them. -/
def apKeyBase : Nat := 2 ^ 60
def apKey (ctx i off : Nat) : Nat := apKeyBase + (ctx * 64 + i) * 2 ^ 40 + lineKey off

/-- First address of an aperture of a context. -/
def State.apBase (s : State) (ctx i : Nat) : Nat :=
  match (s.ctx ctx).aps.find? (fun a => a.idx == i) with
  | some a => a.desc.abase
  | none => 0

/-- Bytes of an aperture of a context. -/
def State.apSize (s : State) (ctx i : Nat) : Nat :=
  match (s.ctx ctx).aps.find? (fun a => a.idx == i) with
  | some a => apBytes a.desc
  | none => 0

/-- A line read at its home (R222, R381, R387): 128 bytes. va is the address accessed (R127). -/
def State.homeLine (s : State) (key va : Nat) : Res (Vec × State) :=
  if key < apKeyBase then do
    let s ← s.homeScrub key
    pure (BitVec.ofNat 1024 (mnat s.home key 128), s.hbmUsed key)
  else
    let n := (key - apKeyBase) / 2 ^ 40
    let off := (key - apKeyBase) % 2 ^ 40
    let r := (List.range 128).foldlM (fun (p : List Nat × State) i =>
      if p.2.apSize (n / 64) (n % 64) ≤ off + i then Except.ok (0 :: p.1, p.2)
      else do
        let (b, s) ← p.2.apByte (n / 64) (n % 64) (off + i)
        pure (b.toNat :: p.1, s)) (([] : List Nat), s)
    match r with
    | .error b => .error (b.fault va)
    | .ok (l, s) => .ok (BitVec.ofNat 1024 (ofLanes 8 l.reverse), s)

/-! ### Bit errors of cached lines -/

/-- A bit error of a cache corrected: a slice counts for each of its four cores (R399). -/
def State.cacheCorrected (s : State) (p : UpsetPlace) : State :=
  let up (k : Nat) (s : State) : State := s.modCore k (fun c => { c with cacheCorr := satAdd 0xFFFF c.cacheCorr 1 })
  match p with
  | .l1 k _ => up k s
  | .slice n _ => (List.range 4).foldl (fun s i => up (4 * n + i) s) s
  | _ => s

/-- A cache's line leaves for the next level: an error that cannot be corrected poisons its page, and nothing moves
(R381). -/
def State.lineOut (s : State) (p : UpsetPlace) (l : Line) (go : State → State) : State :=
  match s.upsets.find? (fun u => u.place == p) with
  | none => go s
  | some u =>
    if u.uncorr then ((s.dropUpset u).poison l.key).lose l.key else go ((s.corrected u).cacheCorrected p)

/-- A slice line's dirty bytes written at their home (R231 step 3), unless its page is withdrawn (R381, R383). rel marks a
release, which invalidates apertures (R245). -/
def State.toHome (s : State) (n : Nat) (rel : Bool) (l : Line) : State :=
  s.lineOut (.slice n l.key) l (fun s =>
    if s.poisonedPa l.key then s.lose l.key else
    let s := s.homeTake l.key 128
    let s := { s with home := lineDrain s.home l }
    if rel then s.touchLine l else s.stain n l)

/-- A line put into a slice (Table 11.1: 8 MiB, 16 ways): one that must make room leaves with its dirty bytes. -/
def State.putSlice (s : State) (n : Nat) (l : Line) : State :=
  let c := s.cluster n
  if c.slice.any (fun x => x.key == l.key) then s.modCluster n (fun c => { c with slice := linePut c.slice l })
  else
    match roomFor 16 65536 (s.pick 5) c.slice with
    | (none, _) => s.modCluster n (fun c => { c with slice := linePut c.slice l })
    | (some v, r) =>
      let s := if v.dirty = 0#128 then s else s.toHome n false v
      s.modCluster n (fun c => { c with slice := linePut r l })

/-- A dirty L1 line of core k merged into its slice (R231 step 2). -/
def State.toSlice (s : State) (k : Nat) (l : Line) : State :=
  s.lineOut (.l1 k l.key) l (fun s =>
    let old := (lineFind (s.cluster (clusterOf k)).slice l.key).getD ⟨l.key, l.cls, 0#128, 0#128, 0#1024⟩
    s.putSlice (clusterOf k) ((List.range 128).foldl (fun x i =>
      if l.dirty.getLsbD i then lineStore x i (lineByte l.data i) else x) old))

/-- A line put into an L1 (Table 11.1: 64 KiB, 8 ways). -/
def State.putL1 (s : State) (k : Nat) (l : Line) : State :=
  let c := s.core k
  if c.l1.any (fun x => x.key == l.key) then s.modCore k (fun c => { c with l1 := linePut c.l1 l })
  else
    match roomFor 8 512 (s.pick 4) c.l1 with
    | (none, _) => s.modCore k (fun c => { c with l1 := linePut c.l1 l })
    | (some v, r) =>
      let s := if v.dirty = 0#128 then s else s.toSlice k v
      s.modCore k (fun c => { c with l1 := linePut r l })

/-- A line in a cluster's slice with the bytes of need valid, filled from its home if they are not (R222). -/
def State.sliceLine (s : State) (n key cls : Nat) (need : Mask) (va : Nat) : Res (Line × State) :=
  let cur := lineFind (s.cluster n).slice key
  match cur.filter (fun l => need &&& l.valid == need) with
  | some l => .ok (l, s)
  | none => do
    let (v, s) ← s.homeLine key va
    let l := lineFill cur key cls v
    pure (l, s.putSlice n l)

/-- A line in a core's L1 with the bytes of need valid (R222, R223). -/
def State.l1Line (s : State) (k key cls : Nat) (need : Mask) (va : Nat) : Res (Line × State) :=
  let cur := lineFind (s.core k).l1 key
  match cur.filter (fun l => need &&& l.valid == need) with
  | some l => .ok (l, s)
  | none => do
    let (sl, s) ← s.sliceLine (clusterOf k) key cls (BitVec.allOnes 128) va
    let l := lineFill cur key cls sl.data
    pure (l, s.putL1 k l)

/-- Mask of n bytes from byte i of a line. -/
def byteMask (i n : Nat) : Mask := BitVec.ofNat 128 ((2 ^ n - 1) * 2 ^ i)

/-- A bit error in a line of a cache that an access uses: a clean line is dropped and fetched again, a dirty one poisons its
page (Table 18.3). -/
def State.cacheUpset (s : State) (p : UpsetPlace) (line : Option Line) (drop : State → State) : Res State :=
  match s.upsets.find? (fun u => u.place == p) with
  | none => .ok s
  | some u =>
    let s' := (s.corrected u).cacheCorrected p
    if u.uncorr = false then .ok s' else
    match line with
    | none => .ok (s.dropUpset u)
    | some l =>
      if l.dirty ≠ 0#128 then .error (.fault { code := .memoryUe, cause := 4, addr := l.key }) else .ok (drop s')

/-- Bit errors of core k's L1 line of a key. -/
def State.l1Upset (s : State) (k key : Nat) : Res State :=
  s.cacheUpset (.l1 k key) (lineFind (s.core k).l1 key)
    (fun s => s.modCore k (fun c => { c with l1 := c.l1.filter (fun x => x.key != key) }))

/-- Bit errors of a slice's line of a key. -/
def State.sliceUpset (s : State) (n key : Nat) : Res State :=
  s.cacheUpset (.slice n key) (lineFind (s.cluster n).slice key)
    (fun s => s.modCluster n (fun c => { c with slice := c.slice.filter (fun x => x.key != key) }))

/-- n bytes of cached memory read by core k under a class (R223); they lie in one line. va is their address. -/
def State.cachedRead (s : State) (k key i n cls va : Nat) : Res (List Byte × State) := do
  let s ← s.l1Upset k key
  let s ← s.sliceUpset (clusterOf k) key
  let (l, s) ← s.l1Line k key cls (byteMask i n) va
  pure ((List.range n).map (fun j => lineByte l.data (i + j)), s)

/-- n bytes of cached memory written by core k (R222, R229). -/
def State.cachedWrite (s : State) (k key i cls : Nat) (bs : List Byte) : State :=
  let l0 := (lineFind (s.core k).l1 key).getD ⟨key, cls, 0#128, 0#128, 0#1024⟩
  let l := (bs.foldl (fun (p : Line × Nat) b => (lineStore p.1 p.2 b, p.2 + 1)) (l0, i)).1
  s.putL1 k l

/-! ### Caisson slot bytes -/

/-- The slot of a cluster's partitions that covers a unit of a core. -/
def slotAt (ps : List Partition) (core unit : Nat) : Option Slot :=
  (ps.flatMap (·.slots)).find? (fun x => x.core == core && decide (x.unit ≤ unit) &&
    decide (unit < x.unit + clsUnits x.cls))

/-- A slot changed. -/
def State.modSlot (s : State) (core unit : Nat) (f : Slot → Slot) : State :=
  s.modCluster (clusterOf core) (fun c => { c with parts := c.parts.map (fun p => { p with
    slots := p.slots.map (fun x => if x.core = core ∧ x.unit = unit then f x else x) }) })

/-- Byte of a tile: what the gang wrote there, or a free value (R214). -/
def Slot.get (x : Slot) (off : Nat) : Byte :=
  match x.bytes.find? (fun p => p.1 == off) with
  | some p => p.2
  | none => Config.tileByte x.core off x.gen

/-- A byte of a tile written; the list stays rising. -/
def Slot.put (x : Slot) (off : Nat) (b : Byte) : Slot :=
  { x with bytes := linsert Prod.fst (off, b) (x.bytes.filter (fun p => p.1 != off)) }

/-! ### Targets -/

/-- Byte i after a target. -/
def Target.plus (t : Target) (i : Nat) : Target :=
  match t with
  | .spad c o => .spad c (o + i)
  | .tile c o => .tile c (o + i)
  | .wst d o => .wst d (o + i)
  | .mem a => .mem (a + i)
  | .bus a => .bus (a + i)
  | .ap c x o => .ap c x (o + i)

/-- A bit error lies in one of the 64-bit words of a single-copy store that n bytes at a target touch. -/
def upsetIn (u : Upset) (t : Target) (n : Nat) : Bool :=
  match u.place, t with
  | .spad c o, .spad c' o' | .spad c o, .tile c' o' | .wst c o, .wst c' o' =>
    c == c' && decide (o / 8 ≤ (o' + n - 1) / 8) && decide (o' / 8 ≤ o / 8)
  | _, _ => false

/-- n bytes at a target cover the 64-bit word of an offset. -/
def coversWord (t : Target) (n o : Nat) : Bool :=
  match t with
  | .spad _ a | .tile _ a | .wst _ a => decide (a ≤ o / 8 * 8) && decide (o / 8 * 8 + 8 ≤ a + n)
  | _ => false

/-- Offset of a bit error in a single-copy store, and the cause of the fault it raises (Table 18.3). -/
def UpsetPlace.spot : UpsetPlace → Nat × Nat
  | .spad _ o => (o, 2)
  | .wst _ o => (o, 5)
  | _ => (0, 0)

/-- A bit error of a single-copy store corrected: ERR_CORR counts a scratchpad's (R189, R387). -/
def State.spadFixed (s : State) (u : Upset) : State :=
  match u.place with
  | .spad c _ => (s.corrected u).modCore c (fun c => { c with spadCorr := satAdd 0xFFFF c.spadCorr 1 })
  | _ => s.corrected u

/-- Bit errors of the single-copy words that an access touches are corrected or consumed; a write that covers a word whole
replaces it (R189, R381, R387). -/
def State.scrubAs (s : State) (wr : Bool) (t : Target) (n : Nat) : Res State :=
  (s.upsets.filter (fun u => upsetIn u t n)).foldlM (fun s u =>
    let (o, cause) := UpsetPlace.spot u.place
    if wr && coversWord t n o then .ok (s.dropUpset u)
    else if u.uncorr then .error (.fault { code := .memoryUe, cause := cause, addr := o })
    else .ok (s.spadFixed u)) s

/-- Before a read. -/
def State.scrub (s : State) (t : Target) (n : Nat) : Res State := s.scrubAs false t n

/-- Before a write (R189). -/
def State.scrubW (s : State) (t : Target) (n : Nat) : Res State := s.scrubAs true t n

/-- Cycles since device reset, from which the calendar of R226 runs. -/
def State.calTime (s : State) : Nat := s.now - s.power.resetAt

/-- The bank group of a weight-store offset refreshes now (R226). -/
def State.refreshing (s : State) (off : Nat) : Bool := s.calTime / 1150 % 128 == 4 * (off / 4096 % 32)

/-- n bytes read at a target by core k under a class; they lie in one line of memory (R223, R229). -/
def State.readTarget (s : State) (k : Nat) (t : Target) (n cls : Nat) : Res (List Byte × State) := do
  let s ← s.scrub t n
  match t with
  | .spad c o => pure (mgets (s.core c).spad o n, s)
  | .tile c o =>
    match slotAt (s.cluster (clusterOf c)).parts c (o / 4096) with
    | some x => pure ((List.range n).map (fun i => x.get (o + i - 4096 * x.unit)), s)
    | none => raiseF .scratchBounds
  | .wst d o => if s.refreshing o then .error .stall else pure (mgets (s.die d).wst o n, s)
  | .mem a => s.cachedRead k (lineKey a) (a % 128) n cls 0
  | .bus a => pure (mgets s.host.mem a n, s)
  | .ap c i o => s.cachedRead k (apKey c i o) (o % 128) n cls (s.apBase c i + o)

/-- Bytes written at a target by core k under a class (R223, R229). -/
def State.writeTarget (s : State) (k : Nat) (t : Target) (cls : Nat) (bs : List Byte) : State :=
  match t with
  | .spad c o => s.modCore c (fun x => { x with spad := mputs x.spad o bs })
  | .tile c o =>
    match slotAt (s.cluster (clusterOf c)).parts c (o / 4096) with
    | some x => s.modSlot x.core x.unit (fun x =>
        (bs.foldl (fun (p : Slot × Nat) b => (p.1.put p.2 b, p.2 + 1)) (x, o - 4096 * x.unit)).1)
    | none => s
  | .wst d o => s.modDie d (fun x => { x with wst := mputs x.wst o bs })
  | .mem a => s.cachedWrite k (lineKey a) (a % 128) cls bs
  | .bus a => s.modHost (fun h => { h with mem := mputs h.mem a bs })
  | .ap _ _ _ => s

/-! ### Release, acquire, maintenance -/

/-- A line after its dirty bytes have left. -/
def Line.cleaned (l : Line) : Line := { l with dirty := 0#128 }

/-- Every dirty line of a core's L1 written into its slice. -/
def State.drainL1 (s : State) (k : Nat) : State :=
  let ds := (s.core k).l1.filter (fun l => l.dirty != 0#128)
  let s := ds.foldl (fun s l => s.toSlice k l) s
  s.modCore k (fun c => { c with l1 := c.l1.map Line.cleaned })

/-- Every dirty line of a slice written to its home, by a release or without one. -/
def State.drainSlice (s : State) (n : Nat) (rel : Bool) : State :=
  let ds := (s.cluster n).slice.filter (fun l => l.dirty != 0#128)
  let s := ds.foldl (State.toHome · n rel) s
  s.modCluster n (fun c => { c with slice := c.slice.map Line.cleaned })

/-- A release of core k at a scope (R231). -/
def State.release (s : State) (k : Nat) (sc : Scope) : State :=
  let s1 := s.drainL1 k
  let s2 := (s1.drainSlice (clusterOf k) true).unstain (clusterOf k)
  match sc with
  | .core => s
  | .cluster => s1
  | .stack | .device => s2
  | .system => s2.mscFlush

/-- Clean bytes of lines filled under a class of the mask dropped. -/
def invalClass (mask : Nat) (ls : List Line) : List Line :=
  ls.filterMap (fun l => if bit mask l.cls then lineInval l else some l)

/-- An acquire of core k at a scope over a class mask (R232). -/
def State.acquire (s : State) (k : Nat) (sc : Scope) (mask : Nat) : State :=
  let s1 := s.modCore k (fun c => { c with l1 := invalClass mask c.l1 })
  let s2 := s1.modCluster (clusterOf k) (fun c => { c with slice := invalClass mask c.slice })
  match sc with
  | .core => s
  | .cluster => s1
  | _ => s2

/-- What a word has written back, with the fault of a line that could not be (R381). -/
def State.ueSince (s0 s : State) : Res State :=
  if s.err.lost.1 = s0.err.lost.1 then .ok s
  else .error (.partly s { code := .memoryUe, cause := 4, addr := s.err.lost.2 })

/-- A release by a word (R231, R381). -/
def State.releaseBy (s : State) (k : Nat) (sc : Scope) : Res State := s.ueSince (s.release k sc)

/-- The mask of all classes. -/
def allClasses : Nat := 0xFFFF

/-- The core's L1 line of an address written back and dropped before an atomic (R223). -/
def State.evictL1 (s : State) (k key : Nat) : State :=
  match lineFind (s.core k).l1 key with
  | none => s
  | some l =>
    let s := if l.dirty = 0#128 then s else s.toSlice k l
    s.modCore k (fun c => { c with l1 := c.l1.filter (fun x => x.key != key) })

/-- The slice's line of an address written back and dropped (R223). -/
def State.evictSlice (s : State) (n key : Nat) : State :=
  match lineFind (s.cluster n).slice key with
  | none => s
  | some l =>
    let s := if l.dirty = 0#128 then s else s.toHome n false l
    s.modCluster n (fun c => { c with slice := c.slice.filter (fun x => x.key != key) })

/-- An indivisible read and write of n bytes by core k at a scope (R131, R132): f maps the old number to the
new one, or to none where nothing is written. The old number is returned. DESIGN CHOICE (assumption 125): a line that it
fills into a slice counts under class 0, since format SAM has no class. -/
def State.atomic (s : State) (k : Nat) (t : Target) (n : Nat) (sc : Scope) (f : Nat → Option Nat) :
    Res (Nat × State) :=
  match t with
  | .mem a => do
    let key := lineKey a
    let s ← s.l1Upset k key
    let s ← s.sliceUpset (clusterOf k) key
    let s := s.evictL1 k key
    if sc = .core ∨ sc = .cluster then
      let (l, s) ← s.sliceLine (clusterOf k) key 0 (BitVec.allOnes 128) 0
      let old := fld l.data.toNat (8 * (a % 128)) (8 * n)
      match f old with
      | none => pure (old, s)
      | some v =>
        let l := ((bytesLE n v).foldl (fun (p : Line × Nat) b => (lineStore p.1 p.2 b, p.2 + 1)) (l, a % 128)).1
        pure (old, s.putSlice (clusterOf k) l)
    else
      let s := s.evictSlice (clusterOf k) key
      let (_, s) ← s.homeLine key 0
      let old := mnat s.home a n
      match f old with
      | none => pure (old, s)
      | some v => pure (old, s.homeWrite a (bytesLE n v))
  | t => do
    let (bs, s) ← s.readTarget k t n 0
    let old := natLE bs
    match f old with
    | none => pure (old, s)
    | some v => do
      let s ← s.scrubW t n
      pure (old, s.writeTarget k t 0 (bytesLE n v))

end Sys2Proof.Machine
end

