-- ==== Sys2Proof/Machine/Operands.lean ====
section
/-! DEFINITION. Operand forms of the S engine: immediates, effective addresses, sizes, and its accesses to memory
(R57, R127, R129 to R132). -/

namespace Sys2Proof.Machine

/-- IMM14 sign-extended (R57). -/
def simm14 (i : Nat) : Dbl := BitVec.ofInt 64 (sextInt 14 i)
/-- IMM14 zero-extended (R57). -/
def zimm14 (i : Nat) : Dbl := BitVec.ofNat 64 i
/-- Bytes of a size code (Table 3.2). -/
def sizeBytes : Size → Nat
  | .byte => 1
  | .half => 2
  | .word => 4
  | .dbl => 8
/-- Bytes of a word or double. -/
def wsizeBytes : WSize → Nat
  | .word => 4
  | .dbl => 8

/-- Effective address: s[A] plus a signed offset of w bits times the size (R127). -/
def State.effAddr (s : State) (a w off size : Nat) : Nat :=
  (s.rdS a + BitVec.ofInt 64 (sextInt w off * size)).toNat

/-- Check 1 of Table 6.3, then where the access goes. -/
def State.reach (s : State) (va n : Nat) (a : Acc) : Res (Target × State) := do
  needAt (va % n == 0) .alignment va
  s.resolve s.cur va a

/-- A load of n bytes by the acting core (R127, R129). -/
def State.loadN (s : State) (va n cls : Nat) : Res (Nat × State) := do
  let (t, s) ← s.reach va n .rd
  let (bs, s) ← s.readTarget s.cur t n cls
  pure (natLE bs, s)

/-- The translations that stores of the acting core to some addresses go through: virtual page and page size (R411). -/
def State.viaOf (s : State) (vas : List Nat) : List (Nat × Nat) :=
  let c := s.ctx s.st.task.ctx
  let xid := s.xidOf s.cur
  let one (va : Nat) : Option (Nat × Nat) :=
    if window va ≠ .translated ∨ (c.bufAt va).isSome then none else
    match tlbFind ((s.core s.cur).tlb ++ (s.cluster (clusterOf s.cur)).tlb) xid va with
    | some e => some (e.vpage, e.shift)
    | none => some (va / 2 ^ 30, 30)
  (vas.filterMap one).foldl (fun l v => if l.contains v then l else v :: l) []

/-- A store of n bytes by the acting core (R127, R129). -/
def State.storeN (s : State) (va n cls v : Nat) : Res State := do
  let (t, s) ← s.reach va n .wr
  let s ← s.scrubW t n
  pure (s.writeTarget s.cur t cls (bytesLE n v))

/-- A value on its way to s[d], tracked on w0 (R58, R102); a plain load's may be fixed later (R229). An error that nothing
detects may have made it another one (R388). -/
def State.returnS (s : State) (d : Nat) (v : Nat) (cls : Nat := 0) (src : List RetSrc := []) : Res State := do
  let s ← s.tokIssue .s 0
  pure ((s.spent (.loads s.cur)).modSt (fun t => { t with rets := t.rets ++
    [{ dst := if d = 0 then .none else .s d, val := s.wrongNat (.loads s.cur) v, mask := ones 64, tok := 0, cls := cls, src := src }] }))

/-- The old value of a word or double extended to 64 bits (R129). -/
def extend (n : Nat) (signed : Bool) (v : Nat) : Nat := if signed then wrapInt 64 (sextInt (8 * n) v) else v

/-- AMO functions at a width of w bits (R131). -/
def amoFn (f : AmoFn) (w old v : Nat) : Nat :=
  let lt := decide (sextInt w old < sextInt w v)
  match f with
  | .add => (old + v) % 2 ^ w
  | .and => old &&& v
  | .or => old ||| v
  | .xor => old ^^^ v
  | .min => if lt then old else v
  | .max => if lt then v else old
  | .minu => min old v
  | .maxu => max old v
  | .swap => v
  | .fadd32 => fadd32 old v

/-- Functions that PCIe AtomicOps carry (R127, R131). -/
def amoBus : AmoFn → Bool
  | .add | .swap => true
  | _ => false

/-- A target in host or peer memory. -/
def Target.isBus : Target → Bool
  | .bus _ => true
  | _ => false

/-- ALU functions (Table 6.1). -/
def aluFn (f : AluFn) (d a b : Dbl) : Dbl :=
  let n := b.toNat % 64
  match f with
  | .add => a + b
  | .sub => a - b
  | .and => a &&& b
  | .or => a ||| b
  | .xor => a ^^^ b
  | .andn => a &&& ~~~ b
  | .shl => a <<< n
  | .shr => a >>> n
  | .sra => a.sshiftRight n
  | .rol => a.rotateLeft n
  | .min => if a.toInt < b.toInt then a else b
  | .max => if a.toInt < b.toInt then b else a
  | .minu => if a.toNat < b.toNat then a else b
  | .maxu => if a.toNat < b.toNat then b else a
  | .clz => BitVec.ofNat 64 (clz 64 a.toNat)
  | .popc => BitVec.ofNat 64 (popc 64 a.toNat)
  | .sel => (a &&& d) ||| (b &&& ~~~ d)

/-- MULDIV functions with the borderline results of Table 6.2 (R122). -/
def mulFn (f : MulFn) (a b : Dbl) : Dbl :=
  match f with
  | .mul => a * b
  | .mulh => BitVec.ofInt 64 (a.toInt * b.toInt / 2 ^ 64)
  | .mulhu => BitVec.ofNat 64 (a.toNat * b.toNat / 2 ^ 64)
  | .div => if b = 0#64 then BitVec.allOnes 64 else BitVec.ofInt 64 (a.toInt.tdiv b.toInt)
  | .divu => if b = 0#64 then BitVec.allOnes 64 else BitVec.ofNat 64 (a.toNat / b.toNat)
  | .rem => if b = 0#64 then a else BitVec.ofInt 64 (a.toInt.tmod b.toInt)
  | .remu => if b = 0#64 then a else BitVec.ofNat 64 (a.toNat % b.toNat)

/-- The divider forms (R120). -/
def usesDivider : MulFn → Bool
  | .mul | .mulh | .mulhu => false
  | _ => true

end Sys2Proof.Machine
end

