-- ==== Sys2Proof/Machine/Flags.lean ====
section
/-! DEFINITION. Conditions: relations of scalars and the writes that set c0 to c3 (R86, R126). The arithmetic flags of
SEQ_FLAGS are computed with the values, in Num.lean, and set by State.raise (R43). -/

namespace Sys2Proof.Machine

/-- Relations of Table 4.3 on 64-bit values. -/
def relation (r : Rel) (x y : Dbl) : Bool :=
  match r with
  | .eq => x == y
  | .ne => x != y
  | .lt => decide (x.toInt < y.toInt)
  | .ge => decide (y.toInt ≤ x.toInt)
  | .ltu => decide (x.toNat < y.toNat)
  | .geu => decide (y.toNat ≤ x.toNat)

/-- A signed relation, which sign-extends a word operand (R195). -/
def relSigned : Rel → Bool
  | .lt | .ge => true
  | _ => false

/-- All four conditions from bits 3:0 (R126). -/
def State.putConds (s : State) (v : Nat) : State := s.modRegs (fun r => { r with c := BitVec.ofNat 4 v })

end Sys2Proof.Machine
end

