-- ==== Sys2Proof/Machine/Queues.lean ====
section
/-! DEFINITION. Push, pop, marker and drain words of S and V, and the port configurations
(spec/07_queues_and_ports.md). -/

namespace Sys2Proof.Machine

/-- QPUSH (R142): S→V, S→M or S→C. -/
def execQpush (sel a : Nat) (s : State) : Host.Outcome State Fault Refusal :=
  wordPre .s s (s.push sel (some (s.rdS a)))

/-- QPOP (R142): V→S, M→S, or S's outcome queue. -/
def execQpop (sel d : Nat) (s : State) : Host.Outcome State Fault Refusal :=
  wordPre .s s (
    if sel = 2 then do
      let (b, s) ← s.popOq .s
      pure (s.putS d (BitVec.ofNat 64 (b2n b)))
    else do
      let (v, s) ← s.pop (3 + sel)
      pure (s.putS d v))

/-- FPUSH (R142). -/
def execFpush (a : Nat) (s : State) : Host.Outcome State Fault Refusal :=
  wordPre .s s (
    if 32 ≤ s.st.qs.fq.length then .error .stall
    else .ok (s.modQs (fun q => { q with fq := q.fq ++ [some (BitVec.ofNat 32 (s.rdS a).toNat)] })))

/-- Fields of a port parameter block given as a number (Table 7.7). -/
def portCfg (x : Nat) : PortCfg :=
  { base := fld x 0 64
    dir := fld x 64 1, esz := fld x 65 2, oc := fld x 67 4, tv := fld x 71 1, tok := fld x 72 3
    estride := sextInt 16 (fld x 80 16)
    counts := [fld x 128 16, fld x 144 16, fld x 160 16, fld x 176 16]
    strides := [sextInt 32 (fld x 192 32), sextInt 32 (fld x 224 32), sextInt 32 (fld x 256 32),
      sextInt 32 (fld x 288 32)] }

/-- Limits of Table 7.7. -/
def portOk (x : Nat) : Bool :=
  let c := portCfg x
  let e : Nat := 2 ^ c.esz
  fld x 75 5 == 0 && fld x 96 32 == 0 && fld x 320 64 == 0 && c.base % e == 0
    && c.counts.all (· != 0) && c.strides.all (fun d => d % (e : Int) == 0)
    && (c.estride != 0 || c.dir == 0)

/-- Configurations a port holds, markers not counted (R145, R148). -/
def Port.held (p : Port) : Nat := (p.cfgs.filter (·.isSome)).length

/-- PSET (R145). DESIGN CHOICE (assumption 135): its faults come before its stall, whose order R145 leaves open. -/
def execPset (p a : Nat) (s : State) : Host.Outcome State Fault Refusal :=
  wordPre .s s (do
    let va := (s.rdS a).toNat
    needAt (va % 16 == 0) .alignment va
    let off ← match window va with
      | .spad none off => if off + 48 ≤ s.st.allot then .ok off else .error (.fault { code := .scratchBounds, addr := va })
      | _ => .error (.fault { code := .scratchBounds, addr := va })
    let s ← s.scrub (.spad s.cur off) 48
    let x := mnat (s.core s.cur).spad off 48
    needAt (portOk x) .commandField va
    wait (decide ((lget s.st.qs.port p {}).held < 4))
    pure (s.modQs (fun q => { q with port := lmod q.port p (fun y => { y with cfgs := y.cfgs ++ [some (portCfg x)] }) })))

/-- A marker pushed into a data queue. -/
def State.mark (s : State) (q : Nat) : State := s.putQueue q (s.queue q ++ [none])

/-- QMARK (R148): every named queue takes a marker in one cycle. -/
def execQmark (m : Nat) (s : State) : Host.Outcome State Fault Refusal :=
  wordPre .s s (
    let full := (List.range 3).any (fun q => bit m q && decide (16 ≤ (s.queue q).length))
      || (bit m 3 && decide (32 ≤ s.st.qs.fq.length))
    if full then .error .stall else
    let s := (List.range 3).foldl (fun s q => if bit m q then s.mark q else s) s
    let s := if bit m 3 then s.modQs (fun q => { q with fq := q.fq ++ [none] }) else s
    .ok (if bit m 0 then
        s.modQs (fun q => { q with port := q.port.map (fun y => { y with cfgs := y.cfgs ++ [none] }) })
      else s))

/-- A queue drained to its next marker: what is left, or none where no marker has arrived (R150). -/
def toMarker {α : Type} : List (Option α) → Option (List (Option α))
  | [] => none
  | none :: l => some l
  | some _ :: l => toMarker l

/-- One data queue drained: done, or emptied and waiting, or an underflow (R150). -/
def State.drainQueue (s : State) (q : Nat) : Res (Bool × State) :=
  match toMarker (s.queue q) with
  | some l => .ok (true, (s.putQueue q l).join (qTaker q) (qGiver q))
  | none => if s.producerDone q then raiseF .queueUnderflow else .ok (false, s.putQueue q [])

/-- One port drained (R150). -/
def State.drainPort (s : State) (p : Nat) : Res (Bool × State) :=
  let put (l : List (Option PortCfg)) : State :=
    s.modQs (fun q => { q with port := q.port.set p { cfgs := l, moved := 0 } })
  match toMarker (lget s.st.qs.port p {}).cfgs with
  | some l => .ok (true, (put l).join .v .s)
  | none => if s.st.ended then raiseF .queueUnderflow else .ok (false, put [])

/-- Progress of an engine's drain (R150). -/
def State.drainAt (s : State) (e : Eng) : Nat := lget s.st.drain (engNo e) 0
/-- Progress noted. -/
def State.setDrain (s : State) (e : Eng) (n : Nat) : State :=
  s.modSt (fun t => { t with drain := t.drain.set (engNo e) n })

/-- Queues drained one after another from where the drain stands; a hold where a marker is still to come. -/
def State.drainFrom (s : State) (e : Eng) (one : Nat → State → Res (Bool × State)) : List Nat → Res State
  | [] => .ok s
  | i :: l =>
    if i < s.drainAt e then s.drainFrom e one l else do
      let (done, s) ← one i s
      if done then (s.setDrain e (i + 1)).drainFrom e one l else .error (.hold (s.setDrain e i))

/-- SQDRAIN (R150): V→S or M→S. -/
def execSqdrain (sel : Nat) (s : State) : Host.Outcome State Fault Refusal :=
  wordPre .s s (do
    let s ← s.drainFrom .s (fun _ s => s.drainQueue (3 + sel)) [0]
    pure (s.setDrain .s 0))

/-- A marker pushed into a queue that its engine has pushed into since its last drain (R150). -/
def State.markIf (s : State) (b : Bool) (q : Nat) : Res State := if b then s.push q none else .ok s

/-- VQDRAIN (R150): S→V, then each port, then markers into V→S and V→M. -/
def execVqdrain (s : State) : Host.Outcome State Fault Refusal :=
  wordPre .v s (do
    let s ← s.drainFrom .v (fun i s => if i = 0 then s.drainQueue 0 else s.drainPort (i - 1)) [0, 1, 2, 3, 4]
    let put : Res State := do
      let s1 ← s.markIf s.st.qs.vsPushed 3
      s1.markIf s1.st.qs.vmPushed 5
    match put with
    | .error .stall => .error (.hold s)
    | r => do
      let s ← r
      pure ((s.setDrain .v 0).modQs (fun q => { q with vsPushed := false, vmPushed := false })))

end Sys2Proof.Machine
end

