-- ==== Sys2Proof/Machine/Sync.lean ====
section
/-! DEFINITION. WAITA, barriers, futures, and JOIN (spec/09_scratchpad_and_sync.md, spec/17 R375). -/

namespace Sys2Proof.Machine

/-- Checks 1 to 5 of Table 9.3: the core and offset of the object. -/
def State.syncAddr (s : State) (va align : Nat) : Res (Nat × Nat) := do
  needAt (va % align == 0) .alignment va
  needAt (decide (va < 2 ^ 48)) .translation va
  match window va with
  | .spad p off =>
    match ← s.spadTarget s.cur p off va with
    | .spad c o => pure (c, o)
    | _ => .error (.fault { code := .scratchBounds, addr := va })
  | _ => .error (.fault { code := .permission, addr := va })

/-- An object's bytes at its bank, as a number (R192). -/
def State.objGet (s : State) (p : Nat × Nat) (n : Nat) : Nat := mnat (s.core p.1).spad p.2 n

/-- An object written at its bank. -/
def State.objPut (s : State) (p : Nat × Nat) (n v : Nat) : State :=
  s.modCore p.1 (fun c => { c with spad := mputn c.spad p.2 n v })

/-- The value WAITA tests: a word extended as its relation asks, or a double (R195). -/
def waitaExt (r : Rel) (sz : WSize) (x : Nat) : Dbl :=
  match sz with
  | .dbl => BitVec.ofNat 64 x
  | .word => BitVec.ofNat 64 (extend 4 (relSigned r) (x % 2 ^ 32))

/-- WAITA from its second turn on, or once its object is known: it completes on a value that satisfies the relation, be it the
one found when a step was applied, or once its limit has expired (R195). -/
def State.waitaEnd (s : State) (d : Nat) (r : Rel) (sz : WSize) (p : Poll) : Res State := do
  let (x, s) ← (match p.hit with
    | some x => .ok (x, s)
    | none => do
      let s ← s.scrub (.spad p.core p.off) (wsizeBytes sz)
      pure (waitaExt r sz (s.objGet (p.core, p.off) (wsizeBytes sz)), s))
  if relation r x p.y || (p.lim != 0 && decide (p.t0 + p.lim ≤ s.now)) then
    pure (((s.modSt (fun t => { t with poll := none })).putS d x).acquire s.cur .cluster allClasses)
  else .error (.hold (s.modSt (fun t => { t with poll := some p })))

/-- WAITA (R195): the object, the value compared and the limit are fixed at its issue. -/
def waitaTest (r : Rel) (sz : WSize) (d a b : Nat) (s : State) : Res State :=
  match s.st.poll with
  | some p => s.waitaEnd d r sz p
  | none => do
    let va := (s.rdS a).toNat
    let p ← s.syncAddr va (wsizeBytes sz)
    s.waitaEnd d r sz { va := va, core := p.1, off := p.2, test := some (r, sz), y := waitaExt r sz (s.rdS b).toNat,
                        t0 := s.now, lim := s.st.wtimeout }

/-- WAITA (R195). -/
def execWaita (r : Rel) (sz : WSize) (d a b : Nat) (g : Guard) (s : State) : Host.Outcome State Fault Refusal :=
  guardedPre g s (waitaTest r sz d a b s)

/-- Reserved bits of a barrier, or ERR (Table 9.5, Table 9.3 check 6). -/
def barBad (x : Nat) : Bool := fld x 93 35 != 0 || fld x 48 16 != 0 || bit x 92

/-- PEND as a signed count (Table 9.5). -/
def barPend (x : Nat) : Int := sextInt 28 (fld x 64 28)

/-- A barrier with PEND replaced. -/
def barSetPend (x : Nat) (p : Int) : Nat := setFld x 64 28 (wrapInt 28 p)

/-- settle of R198. -/
def barSettle (x : Nat) : Nat :=
  if fld x 0 16 = fld x 16 16 ∧ barPend x = 0 then setFld (setFld x 0 16 0) 32 16 ((fld x 32 16 + 1) % 65536) else x

/-- ARRIVE and EXPECT of R198 on a barrier: the new barrier, or none for ILLEGAL_OPERAND. -/
def barStep (arrive : Bool) (expect : Option Nat) (x : Nat) : Option Nat :=
  let tooMany := match expect with
    | none => false
    | some n => decide (2 ^ 27 - 1 < n) || decide (2 ^ 27 - 1 < barPend x + (n : Int))
  if barBad x || tooMany || (arrive && fld x 0 16 == fld x 16 16) then none else
  let x := match expect with
    | none => x
    | some n => barSetPend x (barPend x + n)
  let x := if arrive then setFld x 0 16 (fld x 0 16 + 1) else x
  some (barSettle x)

/-- The copy subtraction of R199. -/
def barSubtract (x n : Nat) : Nat :=
  if barBad x ∨ barPend x - (n : Int) < -(2 ^ 27 : Int) then setFld x 92 1 1
  else barSettle (barSetPend x (barPend x - n))

/-- A BAR step with its release (R193): D receives the phase joined. -/
def barWord (d : Option Nat) (a : Nat) (expect : Option Nat) (arrive : Bool) (s : State) : Res State := do
  let va := (s.rdS a).toNat
  let p ← s.syncAddr va 16
  let s ← s.scrub (.spad p.1 p.2) 16
  let x := s.objGet p 16
  match barStep arrive expect x with
  | none => .error (.fault { code := .illegalOperand, addr := va })
  | some y =>
    let s ← (if arrive then s.releaseBy s.cur .cluster else .ok s)
    let s := s.objPut p 16 y
    pure (match d with
      | some d => s.putS d (BitVec.ofNat 64 (fld x 32 16))
      | none => s)

/-- BAR ARRIVE (R198). -/
def execBarArrive (d a : Nat) (g : Guard) (s : State) : Host.Outcome State Fault Refusal :=
  guardedPre g s (barWord (some d) a none true s)
/-- BAR EXPECT (R198). -/
def execBarExpect (a b : Nat) (g : Guard) (s : State) : Host.Outcome State Fault Refusal :=
  guardedPre g s (barWord none a (some (s.rdS b).toNat) false s)
/-- BAR ARRIVE_EXPECT (R198). -/
def execBarArriveExpect (d a b : Nat) (g : Guard) (s : State) : Host.Outcome State Fault Refusal :=
  guardedPre g s (barWord (some d) a (some (s.rdS b).toNat) true s)
/-- BAR WAIT (R198): until the phase has moved on, as it stands after each step on the barrier. -/
def barWaitTest (a b : Nat) (s : State) : Res State :=
  match s.st.poll with
  | some p =>
    match p.hit with
    | none => .error .stall
    | some x => do
      needAt (x == 1#64) .illegalOperand p.va
      pure ((s.modSt (fun t => { t with poll := none })).acquire s.cur .cluster allClasses)
  | none => do
    let va := (s.rdS a).toNat
    let p ← s.syncAddr va 16
    let s ← s.scrub (.spad p.1 p.2) 16
    let x := s.objGet p 16
    needAt (!barBad x) .illegalOperand va
    let y := (s.rdS b).toNat % 65536
    if fld x 32 16 != y then pure (s.acquire s.cur .cluster allClasses)
    else .error (.hold (s.modSt (fun t =>
      { t with poll := some { va := va, core := p.1, off := p.2, test := none, y := BitVec.ofNat 64 y } })))

/-- BAR WAIT (R198). -/
def execBarWait (a b : Nat) (g : Guard) (s : State) : Host.Outcome State Fault Refusal :=
  guardedPre g s (barWaitTest a b s)

/-- What the object that a strand waits on shows now: for WAITA a value that satisfies it, for BAR WAIT 1 once the phase has
moved on and 0 for ERR (R195, R198). DESIGN CHOICE (assumption 142): a BAR WAIT sees what any write leaves in the barrier, and
reserved bits that a write has set end it as ERR does. -/
def State.shows (s : State) (p : Poll) : Option Dbl :=
  if p.quiet then none else
  match p.test with
  | some (r, sz) =>
    let x := waitaExt r sz (s.objGet (p.core, p.off) (wsizeBytes sz))
    if relation r x p.y then some x else none
  | none =>
    let x := s.objGet (p.core, p.off) 16
    if barBad x then some 0#64 else if fld x 32 16 ≠ p.y.toNat then some 1#64 else none

/-- A core's waiting strand after a write that may have changed its object. What ends the wait comes after the strand's earlier
loads, whose values are fixed by then (R193, R229). -/
def Core.watch (s : State) (c : Core) : Core :=
  match c.strand.poll with
  | none => c
  | some p =>
    if p.hit.isSome then c else
    match s.shows p with
    | none => c
    | some x => c.modStrand (fun t => { (t.fixed .s (fun _ => true)) with poll := some { p with hit := some x } })

/-- The strands that wait on an object read it after each write (R195, R198). -/
def State.watch (s : State) : State := { s with cores := s.cores.map (Core.watch s) }

/-- Check 6 for futures: STATE and the reserved bits (R200). -/
def futBad (x : Nat) : Bool := fld x 1 63 != 0

/-- The future that a word names: found at its issue, and the same while the word waits (R118, R201). -/
def State.futAt (s : State) (a : Nat) : Res Poll :=
  match s.st.poll with
  | some p => .ok p
  | none => do
    let va := (s.rdS a).toNat
    let p ← s.syncAddr va 16
    pure { va := va, core := p.1, off := p.2, test := none, y := 0#64, quiet := true }

/-- A future read in one step. -/
def State.futGet (s : State) (p : Poll) : Res (Nat × State) := do
  let s ← s.scrub (.spad p.core p.off) 16
  let x := s.objGet (p.core, p.off) 16
  needAt (!futBad x) .illegalOperand p.va
  pure (x, s)

/-- The word waits on, or waits no more. -/
def State.setPoll (s : State) (p : Option Poll) : State := s.modSt (fun t => { t with poll := p })

/-- FPUT (R201): a second write before any read is FUTURE_OVERWRITE. -/
def execFput (a b : Nat) (g : Guard) (s : State) : Host.Outcome State Fault Refusal :=
  guardedPre g s (do
    let p ← s.futAt a
    let (x, s') ← s.futGet p
    needAt (!bit x 0) .futureOverwrite p.va
    let s' ← s'.releaseBy s.cur .cluster
    pure (s'.objPut (p.core, p.off) 16 (1 + 2 ^ 64 * (s.rdS b).toNat)))

/-- FGET and FPEEK (R201): they stall until a step finds the future full; that step takes the value, and FGET empties the
future in it. -/
def futTake (take : Bool) (d a : Nat) (s : State) : Res State := do
  let p ← s.futAt a
  let (x, s) ← s.futGet p
  if bit x 0 = false then .error (.hold (s.setPoll (some p))) else
  let s := if take then s.objPut (p.core, p.off) 16 (x - 1) else s
  pure (((s.setPoll none).putS d (BitVec.ofNat 64 (fld x 64 64))).acquire s.cur .cluster allClasses)

/-- FGET (R201): takes the value and empties the future. -/
def execFget (d a : Nat) (g : Guard) (s : State) : Host.Outcome State Fault Refusal :=
  guardedPre g s (futTake true d a s)

/-- FPEEK (R201): takes the value and leaves the future full. -/
def execFpeek (d a : Nat) (g : Guard) (s : State) : Host.Outcome State Fault Refusal :=
  guardedPre g s (futTake false d a s)

/-- Reserved bits of a join object (Table 9.8). -/
def joinBad (x : Nat) : Bool := fld x 75 53 != 0 || fld x 32 32 != 0

/-- The 16 bytes of a join object, read at its home (R375). -/
def State.joinRead (s : State) : Target → Res (Nat × State)
  | .bus b => .ok (mnat s.host.mem b 16, s)
  | .ap c i o => do
    let (v, s) ← s.homeLine (apKey c i o) (s.apBase c i + o)
    pure (fld v.toNat (8 * (o % 128)) 128, s)
  | .mem a => do
    let (_, s) ← s.homeLine (lineKey a) 0
    pure (mnat s.home a 16, s)
  | _ => raiseF .permission

/-- JOIN (R375): waits for COUNT 0 at the home, returns the status, and acquires at .device. -/
def execJoin (d a : Nat) (g : Guard) (s : State) : Host.Outcome State Fault Refusal :=
  guardedPre g s (do
    let va := match s.st.poll with
      | some p => p.va
      | none => (s.rdS a).toNat
    needAt (va % 16 == 0) .alignment va
    needAt (decide (va < 2 ^ 48)) .translation va
    let (t, s) ← match window va with
      | .spad _ _ | .spadGap | .tile _ | .wst _ => .error (.fault { code := .permission, addr := va })
      | .hole => .error (.fault { code := .translation, addr := va })
      | .translated => s.resolve s.cur va .rd
    let (x, s) ← s.joinRead t
    needAt (!joinBad x) .illegalOperand va
    if fld x 0 32 ≠ 0 then
      .error (.hold (s.setPoll (some { va := va, core := 0, off := 0, test := none, y := 0#64, quiet := true })))
    else pure (((s.setPoll none).putS d (BitVec.ofNat 64 (fld x 64 64))).acquire s.cur .device allClasses))

end Sys2Proof.Machine
end

