-- ==== Sys2Proof/Machine/Command.lean ====
section
/-! DEFINITION. Command registers and what copy and Girder commands share: halfwords, accesses to memory at the home, range
checks at issue, and completion actions (spec/03 R64 to R66, spec/12 R252, R264, R267, spec/13 R277 to R279). -/

namespace Sys2Proof.Machine

/-! ### Fields of a command register (Tables 3.6 and 3.7) -/

/-- Halfword i. -/
def hw (k i : Nat) : Nat := fld k (16 * i) 16
/-- KIND. -/
def kKind (k : Nat) : Nat := fld k 0 8
/-- FLAGS. -/
def kFlags (k : Nat) : Nat := fld k 8 8
/-- FLAGS bit 7, EARLY. -/
def kEarly (k : Nat) : Bool := bit k 15
/-- FLAGS bit 6, SER. -/
def kSer (k : Nat) : Bool := bit k 14
/-- FLAGS bit 0. -/
def kBit0 (k : Nat) : Bool := bit k 8
/-- Completion bits of halfword 1. -/
def kDec (k : Nat) : Bool := bit k 23
def kBsub (k : Nat) : Bool := bit k 22
def kSgw (k : Nat) : Bool := bit k 21
def kEvs (k : Nat) : Bool := bit k 20
def kTv (k : Nat) : Bool := bit k 19
def kTok (k : Nat) : Nat := fld k 16 3
def kWaitmask (k : Nat) : BitVec 32 := BitVec.ofNat 32 (fld k 32 32)
def kSigmask (k : Nat) : BitVec 32 := BitVec.ofNat 32 (fld k 64 32)
def kSrc (k : Nat) : Nat := fld k 96 64
def kDst (k : Nat) : Nat := fld k 160 64
def kCount (k i : Nat) : Nat := hw k (14 + i)
def kSS (k i : Nat) : Int := sextInt 32 (fld k (16 * (19 + 2 * i)) 32)
def kDS (k i : Nat) : Int := sextInt 32 (fld k (16 * (29 + 2 * i)) 32)
def kAux (k : Nat) : Nat := fld k 624 64
def kAux2 (k : Nat) : Nat := fld k 688 32
def kSigOff (k : Nat) : Nat := 8 * hw k 45
def kBarOff (k : Nat) : Nat := 16 * hw k 46
def kSigVal (k : Nat) : Nat := fld k 752 64
def kDecId (k : Nat) : Nat := fld k 816 32

/-- Every halfword outside the list is zero (R251, R281). -/
def onlyHw (k : Nat) (used : List Nat) : Bool := (List.range 64).all (fun i => used.contains i || hw k i == 0)

/-- Halfwords every kind may use. -/
def commonHw : List Nat := [0, 1, 2, 3, 4, 5, 45, 46, 47, 48, 49, 50, 51, 52]

/-- Halfwords from a to b. -/
def hwRange (a b : Nat) : List Nat := (List.range (b + 1 - a)).map (· + a)

/-- The completion checks of R264: offsets inside the allotment, and a counter of the context's range (R354). -/
def State.completionOk (s : State) (k : Nat) : Bool :=
  let t := s.st
  (!kSgw k || decide (kSigOff k + 8 ≤ t.allot)) && (!kBsub k || decide (kBarOff k + 16 ≤ t.allot))
    && (!kDec k || decide (kDecId k < (s.ctx t.task.ctx).dcnt))

/-! ### Accesses of a running command -/

/-- Who accesses: the core and whether it is the Girder that does, the slots its command names, the right to read and to
write compressed pages (R287, R412), reads from the current backing (R262), the right to write the weight store (R254),
and the bytes that the command has read ahead of the others (R243, R247). -/
structure Who where
  core : Nat
  gir : Bool := false
  slots : List SlotName := []
  cRd : Bool := false
  cWr : Bool := false
  current : Bool := false
  wstOk : Bool := false
  ahead : List (Nat × Byte) := []
  deriving DecidableEq, Repr, Inhabited

/-- Checks of a leaf for a command (R239, R252, R279, R412, R413): a Girder has no operand in the PCIe range, though its
readout may write there; of the pages of device memory outside published buffers, a command writes only a compressed page:
the copy engine its raw bytes, an ACCRD a zero-mask tile (R287, R412, assumption 124). -/
def State.cmdLeaf (s : State) (w : Who) (e : TlbEntry) (va : Nat) (a : Acc) : Res (Target × State) :=
  let ctx := (s.strand w.core).task.ctx
  let pa := e.pa va
  if e.c = true ∧ (if a = .rd then w.cRd else w.cWr) = false then .error (.fault { code := .permission, addr := va })
  else if a ≠ .rd ∧ e.w = false then .error (.fault { code := .permission, addr := va })
  else if a ≠ .rd ∧ e.mig = true then .error .stall
  else if pcieBase ≤ pa then
    if w.gir = true ∧ a = .rd then .error (.fault { code := .permission, addr := va })
    else s.busTarget ctx (pa - pcieBase) va (a != .rd)
  else if a ≠ .rd ∧ e.c = false then .error (.fault { code := .permission, addr := va })
  else if s.poisonedPa pa then .error (.fault { code := .memoryUe, cause := 4, addr := pa })
  else .ok (.mem pa, s)

/-- Where a command's byte goes (R252, R267, R279). -/
def State.cmdTarget (s : State) (w : Who) (va : Nat) (a : Acc) : Res (Target × State) :=
  match window va with
  | .hole => .error (.fault { code := .translation, addr := va })
  | .spadGap => .error (.fault { code := .scratchBounds, addr := va })
  | .spad p off => do pure (← s.spadTarget w.core p off va, s)
  | .tile off => do
    let t ← s.tileTarget w.core off va a
    pure (t, ← s.peerWake (off / 2 ^ 19))
  | .wst off =>
    if (if a = .rd then s.regionOk w.core off else w.wstOk) = false then
      .error (.fault { code := .permission, addr := va })
    else .ok (.wst (dieOf (clusterOf w.core)) off, s)
  | .translated =>
    let cx := (s.strand w.core).task.ctx
    let c := s.ctx cx
    match c.bufAt va with
    | some (b, e, off) =>
      if a = .rd then
        let side := if w.current then lget b.sel e false else s.readSide w.core b e
        let pa := extPhys b.desc side e + off
        if s.poisonedPa pa then .error (.fault { code := .memoryUe, cause := 4, addr := pa }) else .ok (.mem pa, s)
      else do
        let (lo, s') ← s.writeExtent w.core b e va
        if s.poisonedPa (lo + off) then .error (.fault { code := .memoryUe, cause := 4, addr := lo + off })
        else .ok (.mem (lo + off), s')
    | none =>
    match c.apAt va with
    | some ap =>
      if a = .rd then .ok (.ap cx ap.idx (va - ap.desc.abase), s)
      else .error (.fault { code := .permission, addr := va })
    | none => do
    let (e, s) ← s.xlateNow w.core w.gir va
    s.cmdLeaf w e va a

/-- An error that cannot be corrected in an operand of a Girder command is the Girder's (Table 18.3, R290). -/
def Who.operand {α : Type} (w : Who) (r : Res α) : Res α :=
  match r with
  | .error (.fault f) => .error (.fault (if w.gir = true ∧ f.code = .memoryUe then { f with cause := 6 } else f))
  | r => r

/-- A byte read by a command: cached paths are bypassed (R223), and a byte read ahead is not read again (R243, R247). -/
def State.cmdRd (s : State) (w : Who) (va : Nat) : Res (Byte × State) :=
  match w.ahead.find? (fun p => p.1 == va) with
  | some p => .ok (p.2, s)
  | none => do
  let (t, s) ← s.cmdTarget w va .rd
  let s ← w.operand (s.scrub t 1)
  match t with
  | .mem a => do
    let s ← w.operand (s.homeScrub a)
    pure (mget s.home a, s)
  | .ap c i o =>
    match s.apByte c i o with
    | .ok r => pure r
    | .error b => .error (b.fault va)
  | t => do
    let (bs, s) ← s.readTarget w.core t 1 0
    pure (bs.headD 0#8, s)

/-- An address outside every published buffer and aperture of the context of the strand on core k. -/
def State.unpublished (s : State) (k va : Nat) : Bool :=
  let c := s.ctx (s.strand k).task.ctx
  (c.bufAt va).isNone && (c.apAt va).isNone

/-- What a byte of a compressed page was before a command wrote it is kept, for a discard to put back (R268). -/
def State.keepRaw (s : State) (k va a : Nat) : State :=
  if s.unpublished k va then
    s.modGang (s.strand k).gang (fun g => { g with raw := (a, mget s.home a) :: g.raw })
  else s

/-- A byte written by a command (R223, R248). -/
def State.cmdWr (s : State) (w : Who) (va : Nat) (b : Byte) : Res State := do
  let (t, s) ← s.cmdTarget w va .wr
  match t with
  | .mem a => pure ((s.keepRaw w.core va a).homePuts a [b])
  | t => pure (s.writeTarget w.core t 0 [b])

/-- n bytes read from an address up. -/
def State.cmdRds (s : State) (w : Who) (va : Nat) : Nat → Res (List Byte × State)
  | 0 => .ok ([], s)
  | n + 1 => do
    let (b, s) ← s.cmdRd w va
    let (l, s) ← s.cmdRds w (va + 1) n
    pure (b :: l, s)

/-- A fault after a state in which bytes were written keeps that state (R267). -/
def State.keep {α : Type} (s : State) (r : Res α) : Res α :=
  match r with
  | .error (.fault f) => .error (.partly s f)
  | r => r

/-- Bytes written one by one from an address up. -/
def State.cmdPuts (s : State) (w : Who) (va : Nat) : List Byte → Res State
  | [] => .ok s
  | b :: l => do
    let s ← s.cmdWr w va b
    s.keep (s.cmdPuts w (va + 1) l)

/-- The bit errors of the words that a run of n bytes writes (R189). -/
def State.cmdOpen (s : State) (w : Who) (va n : Nat) : Res State :=
  match (match window va with
    | .spad _ _ | .tile _ | .wst _ => (s.cmdTarget w va .wr).toOption
    | _ => none) with
  | some (t, _) => s.scrubW t n
  | none => .ok s

/-- A run of bytes written from an address up: first the bit errors of the words it writes (R189). -/
def State.cmdWrs (s : State) (w : Who) (va : Nat) (l : List Byte) : Res State := do
  let s ← s.cmdOpen w va l.length
  s.cmdPuts w va l

/-- An n-byte number read by a command. -/
def State.cmdNat (s : State) (w : Who) (va n : Nat) : Res (Nat × State) := do
  let (bs, s) ← s.cmdRds w va n
  pure (natLE bs, s)

/-- Bytes read ahead join those that a command has. -/
def withAhead (l : List (Nat × Byte)) (va : Nat) (bs : List Byte) : List (Nat × Byte) :=
  l ++ bs.mapIdx (fun i b => (va + i, b))

/-- A step repeated for i from 0 to n - 1, the state threaded through. -/
def State.upTo (s : State) (f : Nat → State → Res State) : Nat → Res State
  | 0 => .ok s
  | n + 1 => do
    let s ← s.upTo f n
    s.keep (f n s)

/-! ### Range checks at issue -/

/-- Lowest and highest byte of a run of n bytes repeated with counts and strides (R252). -/
def spanOf (base : Nat) (run : Nat) : List (Nat × Int) → Int × Int
  | [] => ((base : Int), (base : Int) + run - 1)
  | (c, d) :: l =>
    let (lo, hi) := spanOf base run l
    let x := ((c : Int) - 1) * d
    if x < 0 then (lo + x, hi) else (lo, hi + x)

/-- A member of the strand's gang pins a buffer (R242). -/
def State.gangPins (s : State) (k h : Nat) : Bool :=
  match s.gang (s.strand k).gang with
  | none => (s.strand k).pins.any (fun p => p.buf == h)
  | some g => g.members.any (fun m => !m.ended && (s.strand m.core).pins.any (fun p => p.buf == h))

/-- Checks 2, 3 and 5 of Table 6.3 for one end of a range, as far as the address decides them (R252, R279). own says that
tiles of other clusters are refused. -/
def State.endCheck (s : State) (va : Nat) (a : Acc) (own wstOk : Bool) : Res Unit :=
  let k := s.cur
  match window va with
  | .hole => .error (.fault { code := .translation, addr := va })
  | .spadGap => .error (.fault { code := .scratchBounds, addr := va })
  | .spad p off => do let _ ← s.spadTarget k p off va; pure ()
  | .tile off => do
    needAt (!own || clusterOf (off / 2 ^ 19) == clusterOf k) .scratchBounds va
    let _ ← s.tileTarget k off va a
    pure ()
  | .wst off => needAt (if a = .rd then s.regionOk k off else wstOk) .permission va
  | .translated =>
    let c := s.ctx s.st.task.ctx
    if a = .rd then .ok () else
    match c.bufAt va with
    | some (b, _, _) => needAt (!s.gangPins k b.handle) .permission va
    | none => needAt (c.apAt va).isNone .permission va

/-- Both ends of a range checked, with an alignment (R252). -/
def State.rangeCheck (s : State) (r : Int × Int) (align : Nat) (a : Acc) (own wstOk : Bool) : Res Unit := do
  let lo := wrapInt 64 r.1
  let hi := wrapInt 64 r.2
  needAt (lo % align == 0) .alignment lo
  s.endCheck lo a own wstOk
  s.endCheck hi a own wstOk

/-- Access-table slots that a range of the tile window reaches, for a command that issues now: an entry that TRET has taken
away waits for earlier commands only (R217). DESIGN CHOICE (assumption 147): a strided command names every slot between its
lowest and its highest address. -/
def State.slotsIn (s : State) (r : Int × Int) : List SlotName :=
  s.st.acc.filterMap (fun e =>
    let lo := (tileBase + e.core * 2 ^ 19 + e.unit * 4096 : Nat)
    let hi := lo + clsUnits e.cls * 4096
    if e.retired = false ∧ r.1 < (hi : Int) ∧ (lo : Int) ≤ r.2 then some ⟨e.core, e.unit⟩ else none)

/-! ### Completion -/

/-- An access-table entry that TRET took away goes once no command names its slot (R217). -/
def State.dropRetired (s : State) (k : Nat) : State :=
  let busy (e : AccEntry) : Bool :=
    ((s.core k).ldq ++ (s.core k).stq).any (fun c => c.slots.contains ⟨e.core, e.unit⟩) ||
    s.clusters.any (fun c => c.gir.queue.any (fun x => match x with
      | .cmd g => g.core == k && g.slots.contains ⟨e.core, e.unit⟩
      | .marker _ => false))
  s.modStrand k (fun t => { t with acc := t.acc.filter (fun e => !e.retired || busy e) })

/-- Completion action a of a command of the acting core, in the order of R264, n its byte count: SGW with EARLY, BSUB, EVS
and TV. by' is the engine that issued the command, which an event then joins to its waiter (R104). -/
def State.action (s : State) (by' : Eng) (k n a : Nat) : Res State :=
  let own (s : State) (f : Memory → Memory) : State := s.modCore s.cur (fun c => { c with spad := f c.spad })
  match a with
  | 0 => if kSgw k && kEarly k then do
      let s ← s.scrubW (.spad s.cur (kSigOff k)) 8
      pure (own s (fun m => mputn m (kSigOff k) 8 (kSigVal k)))
    else .ok s
  | 1 => if kBsub k then do
      let s ← (if kSgw k && kEarly k then s.watch else s).scrub (.spad s.cur (kBarOff k)) 16
      pure (own s (fun m => mputn m (kBarOff k) 16 (barSubtract (mnat m (kBarOff k) 16) n)))
    else .ok s
  | 2 => .ok (if kEvs k then s.modSt (fun t => t.setEvents by' (kSigmask k)) else s)
  | _ => .ok (if kTv k then s.modSt (fun t => t.tokDown (kTok k)) else s)

/-- The completion actions of a command from number a on, and the two that are held (R264). -/
def State.complete (s : State) (by' : Eng) (k n : Nat) (a : Nat := 0) : Res State := do
  let s ← (hwRange a 3).foldlM (fun s a => s.action by' k n a) s
  let s := if kSgw k && !kEarly k then s.modSt (fun t => t.hold s.free (.sgw (kSigOff k) (kSigVal k))) else s
  pure (if kDec k then s.modSt (fun t => t.hold s.free (.dec (kDecId k))) else s)

/-- What a cancelled command still does (R151). -/
def State.cancelCmd (s : State) (by' : Eng) (k : Nat) : State :=
  let s := if kEvs k then s.modSt (fun t => t.setEvents by' (kSigmask k)) else s
  if kTv k then s.modSt (fun t => t.tokDown (kTok k)) else s

/-- The outcome of a command that starts: a stall leaves it unstarted, a fault ends its strand as a run fault (R267). -/
def cmdOutcome (s : State) (text eng kind queue : Nat) (r : Res State) : Host.Outcome State Fault Refusal :=
  match r with
  | .ok s' => .next s'
  | .error (.fault f) =>
    .next (takeFault { f with engine := eng, precise := false, text := text, ckind := kind, cqueue := queue } s)
  | .error (.partly s' f) =>
    .next (takeFault { f with engine := eng, precise := false, text := text, ckind := kind, cqueue := queue } s')
  | .error x => .next (x.state .c s)

/-- Halfwords fld to fld + n - 1 of a command register replaced. -/
def setHw (v : Vec) (fldNo n x : Nat) : Vec := BitVec.ofNat 1024 (setFld v.toNat (16 * fldNo) (16 * n) x)

end Sys2Proof.Machine
end

