-- ==== Sys2Proof/Machine/Control.lean ====
section
/-! DEFINITION. Transfers, branches on outcomes, waits, events, TRAP, COMMIT, HALT and YIELD
(spec/04_sequencers_and_control.md, spec/05 R110 to R113, spec/06 R135, spec/17 R368 to R376). -/

namespace Sys2Proof.Machine

/-- Engines named by XFER's BM (R87). -/
def bmEngines (bm : Nat) : List Eng :=
  (if bit bm 0 then [.v] else []) ++ (if bit bm 1 then [.m] else []) ++ (if bit bm 2 then [.c] else [])

/-- XFER (R87). -/
def execXfer (bt l u ci cs bm : Nat) (s : State) : Host.Outcome State Fault Refusal :=
  outcome .s s (do
    let slot2 ← s.slotsOk .s
    let taken := u == 1 || (s.getC ci != (cs == 1))
    let target := (s.getB bt).toNat
    let s ← s.pushOq (bmEngines bm) taken
    let s := if l = 1 ∧ taken = true then s.putB 7 (slot2 + 4) else s
    pure (s.jump .s taken target))

/-- VBQ, MBQ and CBQ (R90, R91): what its place in the text makes of the word comes first (R53, R88), then its target
(assumption 43). -/
def branchQ (e : Eng) (sn imm : Nat) (s : State) : Res State := do
  let _ ← s.slotsOk e
  let target ← s.relTarget e imm
  let (b, s) ← s.popOq e
  pure (s.jump e (b == (sn == 1)) target)

/-- VBQ (R90). -/
def execVbq (sn imm : Nat) (s : State) : Host.Outcome State Fault Refusal := outcome .v s (branchQ .v sn imm s)

/-- A flush word issues after every word that Keystone holds, and the value of KEY_CTL.EN takes effect at it
(R312, R323). -/
def State.flush (s : State) : Res State := do
  wait s.st.ks.window.isEmpty
  let en := (s.core s.cur).keyEn
  pure (s.modSt (fun t => { t with ks := { t.ks with en := en } }))

/-- MBQ (R90): a flush word. -/
def execMbq (sn imm : Nat) (s : State) : Host.Outcome State Fault Refusal :=
  outcome .m s (do
    let s ← s.flush
    branchQ .m sn imm s)

/-- CBQ (R90). -/
def execCbq (sn imm : Nat) (s : State) : Host.Outcome State Fault Refusal := outcome .c s (branchQ .c sn imm s)

/-- TRAP (R135): once every earlier S result has landed, the fault with the code and s[D]. -/
def execTrap (d code : Nat) (s : State) : Host.Outcome State Fault Refusal :=
  outcome .s s (
    if s.st.commit = .done then raiseF .illegalOperand
    else if s.st.rets.any (fun r => r.eng == .s) then .error .stall
    else .error (.fault { code := .trap, data := (s.getS d).toNat, aux := some code }))

/-- YIELD (R376). -/
def execYield (s : State) : Host.Outcome State Fault Refusal :=
  if s.st.commit = .done ∨ (s.core s.cur).inPar = true ∨ 4 ≤ s.st.task.disc then
    outcome .s s (raiseF .illegalOperand)
  else .next (s.discard s.st.gang (.requeue false))

/-- Every token of a mask is clear (R111). -/
def State.tokensClear (s : State) (m : Nat) : Bool :=
  (List.range 8).all (fun j => !bit m j || s.st.tokCount j == 0)

/-- The tokens of a mask are waited for by an engine (R111). The counts are those at the end of the cycle: until it ends, no
operation issues under one of them any more (State.tokIssue). The waiting engine is joined to the engines whose operations the
tokens tracked (R104). -/
def State.waitTokens (s : State) (e : Eng) (m : Nat) : Res State := do
  wait (s.tokensClear m)
  let s := s.modSt (fun t => { t with cyc := { t.cyc with waited := t.cyc.waited ||| BitVec.ofNat 8 m } })
  pure ((engsOf s.st.tokBy m).foldl (fun s p => s.join e p) s)

/-- WAIT (R111). -/
def execWait (m : Nat) (s : State) : Host.Outcome State Fault Refusal := word .s s (s.waitTokens .s m)
/-- VWAIT (R111). -/
def execVwait (m : Nat) (s : State) : Host.Outcome State Fault Refusal := word .v s (s.waitTokens .v m)
/-- MWAIT (R111): a flush word. -/
def execMwait (m : Nat) (s : State) : Host.Outcome State Fault Refusal :=
  word .m s (do
    let s ← s.waitTokens .m m
    s.flush)
/-- CWAIT (R111). -/
def execCwait (m : Nat) (s : State) : Host.Outcome State Fault Refusal := word .c s (s.waitTokens .c m)

/-- Events a word names (R113). -/
def State.evMask (s : State) : EvSel → BitVec 32
  | .one ev => BitVec.ofNat 32 (2 ^ ev)
  | .mask a => BitVec.ofNat 32 (s.rdS a).toNat

/-- EVWAIT (R113): an empty mask completes at once. S is joined to the engines that have set the events found, themselves or
by their commands (R104). -/
def execEvwait (e : EvSel) (mode : EvMode) (s : State) : Host.Outcome State Fault Refusal :=
  wordPre .s s (do
    let m := s.evMask e
    let hit := s.st.regs.e &&& m
    wait (m == 0#32 || (match mode with
      | .any => hit != 0#32
      | .all => hit == m))
    pure ((engsOf s.st.evBy hit.toNat).foldl (fun s p => s.join .s p) s))

/-- EVSIG (R113). -/
def execEvsig (e : EvSel) (s : State) : Host.Outcome State Fault Refusal :=
  word .s s (.ok (s.modSt (fun t => t.setEvents .s (s.evMask e))))

/-- EVCLR (R113): an event that is set in the same cycle stays set (R112). -/
def execEvclr (e : EvSel) (s : State) : Host.Outcome State Fault Refusal :=
  word .s s (.ok (s.modRegs (fun r => { r with e := r.e &&& (~~~ s.evMask e ||| s.st.cyc.evs) })))

/-- VELSE (R95): the top becomes its parent AND NOT itself. -/
def execVelse (s : State) : Host.Outcome State Fault Refusal :=
  wordPre .v s (match s.st.regs.pred with
    | top :: par :: l => .ok (s.modRegs (fun r => { r with pred := (par &&& ~~~ top) :: par :: l }))
    | _ => raiseF .illegalOperand)

/-- VEND (R95). -/
def execVend (s : State) : Host.Outcome State Fault Refusal :=
  wordPre .v s (match s.st.regs.pred with
    | _ :: par :: l => .ok (s.modRegs (fun r => { r with pred := par :: l }))
    | _ => raiseF .illegalOperand)

/-- The current mask (R93). -/
def State.mask (s : State) : Mask := s.st.regs.pred.headD (BitVec.allOnes 128)

/-- VVOTE (R97). -/
def execVvote (q all : Nat) (s : State) : Host.Outcome State Fault Refusal :=
  wordPre .v s (
    let r := if all = 1 then s.mask == BitVec.allOnes 128 else s.mask != 0#128
    let es : List Eng := (if bit q 0 then [.s] else []) ++ (if bit q 1 then [.m] else [])
      ++ (if bit q 2 then [.c] else [])
    s.pushOq es r)

/-- VNOP (R52). -/
def execVnop (s : State) : Host.Outcome State Fault Refusal := word .v s (.ok s)
/-- CNOP (R52). -/
def execCnop (s : State) : Host.Outcome State Fault Refusal := word .c s (.ok s)

end Sys2Proof.Machine
end

