-- ==== Sys2Proof/Machine/KeyMatch.lean ====
section
/-! DEFINITION. Keystone's rules and its decision about the oldest M word (spec/15_keystone.md R311 to R317). The window of
words fetched ahead is not stored: it is read from the text, which no word changes. -/

namespace Sys2Proof.Machine

/-! ### Rule records (Tables 15.1 and 15.2), each a number of 96 bytes -/

def rPlen (r : Nat) : Nat := fld r 0 8
def rRlen (r : Nat) : Nat := fld r 8 8
def rClass (r : Nat) : Nat := fld r 16 2
def rEcond (r : Nat) : Nat := fld r 18 2
def rProd (r : Nat) : Bool := bit r 20
def rNref (r : Nat) : Nat := fld r 24 8
/-- MAP of replacement word j: entries of S→M, fq and V→M. -/
def rMap (r j : Nat) : Nat := fld r (32 + 8 * j) 8
def rMapSm (r j : Nat) : Nat := fld (rMap r j) 0 2
def rMapFq (r j : Nat) : Nat := fld (rMap r j) 2 2
def rMapVm (r j : Nat) : Nat := fld (rMap r j) 4 2
def rPval (r i : Nat) : Nat := fld r (64 + 32 * i) 32
def rPmask (r i : Nat) : Nat := fld r (192 + 32 * i) 32
def rRep (r j : Nat) : Nat := fld r (320 + 32 * j) 32
def rRef (r i : Nat) : Nat := fld r (448 + 16 * i) 16
/-- Field references in use, in their order. -/
def rRefs (r : Nat) : List Nat := (List.range (min 20 (rNref r))).map (rRef r)
def refSide (x : Nat) : Bool := bit x 15
def refPos (x : Nat) : Nat := fld x 13 2
def refLo (x : Nat) : Nat := fld x 8 5
def refWidth (x : Nat) : Nat := fld x 4 4 + 1
def refVar (x : Nat) : Nat := fld x 0 4

/-- Keystone acts on the strand's M words: it is enabled and a rule is loaded (R310). -/
def KState.active (k : KState) : Bool := k.en && k.slots.any (·.isSome)

/-! ### The words ahead -/

/-- An M word ahead: its text offset, the word, and the sequencer after it. -/
structure Ahead where
  off : Nat
  word : Nat
  after : EngSt
  deriving DecidableEq, Repr, Inhabited

/-- The next n M words from a sequencer on (R23, R80, R88). -/
def aheadFrom (text : List Nat) (now : Nat) : Nat → EngSt → List Ahead
  | 0, _ => []
  | n + 1, x =>
    match ownFrom text .m x.pc with
    | none => []
    | some off =>
      let y := { x with pc := off, walk := x.walk + (off - x.pc) / 4 }
      let z := y.step now
      ⟨off, lget text (off / 4) 0, z⟩ :: aheadFrom text now n z

/-! ### Checks of a word that depend on earlier words -/

/-- Element width in bytes of a tile type code (Table 5.2). -/
def tyBytes (c : Nat) : Nat := halfBytes c / 2

/-- What Keystone follows through a group: tile types, M's command registers, and entries popped so far; unk names the
registers that wait for an MSETQ's entry. -/
structure KSim where
  tt : List Nat
  km : List Nat
  sm : Nat := 0
  fq : Nat := 0
  vm : Nat := 0
  unk : List Nat := []
  deriving DecidableEq, Repr, Inhabited

/-- The decode checks of R296 on tile types. -/
def typesOk (tt : List Nat) : Instr → Bool
  | .tmov d _ a _ => tyBytes (lget tt d 4) == tyBytes (lget tt a 4)
  | .tscal d _ a _ => lget tt d 4 == lget tt a 4 && (NTy.ofCode 0 (lget tt d 4)).isFloat
  | .tadd d _ a _ b _ => lget tt d 4 == lget tt a 4 && lget tt d 4 == lget tt b 4
  | _ => true

/-- A kind that pops fq (R144). -/
def popsFq (k : Nat) : Bool := kKind k == 1 || kKind k == 2 || kKind k == 3 || kKind k == 4
/-- A command that pops V→M: GEMM or CONV with QS (R280). -/
def popsVm (k : Nat) : Bool := (kKind k == 1 || kKind k == 2) && kBit0 k

/-- A MISSUE of this register is a flush word (R312). -/
def flushCmd (k : Nat) : Bool := fld k 19 5 != 0 || (kKind k == 4 && bit (hw k 53) 8)

/-- A word that a pattern may name (R315). -/
def keyOp : Instr → Bool
  | .mnop | .tcfg _ _ _ | .tzero _ | .tmov _ _ _ _ | .tscal _ _ _ _ | .tadd _ _ _ _ _ _ | .mset _ _ _ | .msetq _ _
  | .missue _ _ => true
  | _ => false

/-- What one word of a candidate group does to what Keystone follows; none where it fails a decode check or is a flush word.
ent gives the entries as popped, none where one has not arrived. -/
def KSim.word (m : KSim) (ent : Nat → Option Nat) (i : Instr) : Option KSim :=
  if keyOp i = false ∨ typesOk m.tt i = false then none else
  match i with
  | .tcfg d _ ty => some { m with tt := m.tt.set d ty.code }
  | .tscal _ _ _ _ => some { m with sm := m.sm + 1 }
  | .mset k f x => some { m with km := lmod m.km k (fun v => setFld v (16 * f) 16 x) }
  | .msetq k f =>
    match ent m.sm with
    | none => some { m with sm := m.sm + 1, unk := k :: m.unk }
    | some x => some { m with sm := m.sm + 1, km := lmod m.km k (fun v => setFld v (16 * f) 64 x) }
  | .missue k _ =>
    let c := lget m.km k 0
    if m.unk.contains k then some m
    else if flushCmd c then none
    else some { m with fq := m.fq + b2n (popsFq c), vm := m.vm + b2n (popsVm c) }
  | _ => some m

/-- All words of a candidate group. -/
def KSim.run (ent : Nat → Option Nat) : KSim → List Instr → Option KSim
  | m, [] => some m
  | m, i :: l =>
    match m.word ent i with
    | none => none
    | some m' => m'.run ent l

/-! ### Pattern and variables -/

/-- Words match PVAL under PMASK (R311). -/
def patOk (r : Nat) (ws : List Nat) : Bool :=
  (List.range (rPlen r)).all (fun i => lget ws i 0 &&& rPmask r i == rPval r i)

/-- Variables bound by the pattern's references in their order; none where two differ (R314). -/
def bindVars (ws : List Nat) : List Nat → List (Nat × Nat) → Option (List (Nat × Nat))
  | [], env => some env
  | x :: l, env =>
    if refSide x then bindVars ws l env else
    let v := fld (lget ws (refPos x) 0) (refLo x) (refWidth x)
    match aget env (refVar x) with
    | none => bindVars ws l ((refVar x, v) :: env)
    | some w => if w = v then bindVars ws l env else none

/-- Replacement word j with its variables written in (R314). -/
def repWord (r j : Nat) (env : List (Nat × Nat)) : Nat :=
  (rRefs r).foldl (fun w x =>
    if refSide x && refPos x == j then setFld w (refLo x) (refWidth x) ((aget env (refVar x)).getD 0) else w) (rRep r j)

/-- The product that PROD places in entry 0 (R317): the code and its flags. -/
def prodOf (es : List Nat) : Nat × Nat :=
  let (y, f) := es.foldl (fun (p : FVal × Nat) e =>
    let (z, g) := p.1.mul (NTy.fp32.value (e % 2 ^ 32))
    (z, p.2 ||| g)) (.fin false 1 0, 0)
  let (c, g) := rnd y .fp32 .rne false
  (c, f ||| g)

/-- The S→M entries of a group after PROD, with its flags. -/
def groupEntries (r : Nat) (es : List Dbl) : List Dbl × Nat :=
  match es with
  | [] => ([], 0)
  | _ :: l =>
    if rProd r then
      let (c, f) := prodOf (es.map (·.toNat))
      (BitVec.ofNat 64 c :: l, f)
    else (es, 0)

/-- What the words of a replacement take, in their order: an entry of S→M, of fq, of V→M. The command registers are followed
through the replacement, since a MISSUE's kind and QS decide what it pops; one that waits for an entry takes nothing that is
known. ent gives the entries that the words take. A word whose fields R52 reserves takes what its operation takes (R318). -/
def repTakes (r : Nat) (ent : Nat → Option Nat) : List Nat → List Nat → Nat → List Nat → List (Bool × Bool × Bool)
  | _, _, _, [] => []
  | unk, km, j, w :: l =>
    let k := fld w 22 2
    let f := fld w 16 6
    match fld w 24 8 with
    | 0x86 => (true, false, false) :: repTakes r ent unk km (j + 1) l
    | 0x8B => (false, false, false) :: repTakes r ent unk (lmod km k (fun v => setFld v (16 * f) 16 (fld w 0 16))) (j + 1) l
    | 0x8C => (true, false, false) ::
        (match ent (rMapSm r j) with
        | none => repTakes r ent (k :: unk) km (j + 1) l
        | some x => repTakes r ent unk (lmod km k (fun v => setFld v (16 * f) 64 x)) (j + 1) l)
    | 0x8D =>
      let c := lget km k 0
      (false, !unk.contains k && popsFq c, !unk.contains k && popsVm c) :: repTakes r ent unk km (j + 1) l
    | _ => (false, false, false) :: repTakes r ent unk km (j + 1) l

/-- Every MAP field that a replacement word uses names an entry that the group pops (R317), as far as the entries that have
arrived tell. -/
def mapOk (r : Nat) (m : KSim) (takes : List (Bool × Bool × Bool)) : Bool :=
  (takes.mapIdx (fun j x => (!x.1 || decide (rMapSm r j < m.sm))
    && (!m.unk.isEmpty || ((!x.2.1 || decide (rMapFq r j < m.fq)) && (!x.2.2 || decide (rMapVm r j < m.vm)))))).all id

/-- ECOND on the entries as pushed (R317). -/
def econdOk (r : Nat) (es : List Nat) : Bool :=
  match rEcond r with
  | 1 => es.all (fun e => fld e 32 32 == 0 && fld e 0 23 == 0 && decide (127 ≤ fld e 23 9) && decide (fld e 23 9 ≤ 254))
      && decide ((es.map (fun e => fld e 23 8 - 127)).foldl (· + ·) 0 ≤ 127)
  | 2 => es.all (fun e => fld e 32 32 == 0 && decide (fld e 23 8 < 255) && fld e 0 31 != 0)
  | _ => true

/-- A group that a rule matches: the words it stands for, the replacement words with what each takes, and the entries it
pops. -/
structure KGroup where
  slot : Nat
  rule : Nat
  ahead : List Ahead
  reps : List Nat
  sim : KSim
  takes : List (Bool × Bool × Bool) := []
  deriving DecidableEq, Repr, Inhabited

/-- What Keystone decides about the oldest word (R311). -/
inductive KDec where
  /-- It issues unchanged. -/
  | none
  /-- A rule matches so far and waits for entries. -/
  | wait (g : KGroup)
  | take (g : KGroup)
  deriving DecidableEq, Repr, Inhabited

/-- The first n entries of a queue: no marker among those present, and whether all are. -/
def entriesOk {α : Type} (q : List (Option α)) (n : Nat) : Bool := (q.take n).all (·.isSome)
def entriesIn {α : Type} (q : List (Option α)) (n : Nat) : Bool := decide (n ≤ q.length)

/-- One rule tried at the oldest word (R311, R312, R317). -/
def State.keyTry (s : State) (slot r : Nat) (ahead : List Ahead) : KDec :=
  let t := s.st
  if (rClass r = 1 ∧ t.ks.pr = false) ∨ (rClass r = 2 ∧ t.ks.pf = false) then .none else
  let ahead := ahead.take (rPlen r)
  if ahead.length < rPlen r then .none else
  let ws := ahead.map (·.word)
  let ins := ws.filterMap (fun w => match decodeWord w with
    | .ok i => some i
    | .error _ => Option.none)
  if ins.length < rPlen r ∨ patOk r ws = false then .none else
  match bindVars ws (rRefs r) [] with
  | .none => .none
  | some env =>
    let sm := s.queue 1
    let conv (x : Dbl) : Nat := (qConvert (lget t.qs.src 1 15) (lget t.qs.snk 1 15) x).1.toNat
    let ent (i : Nat) : Option Nat := match sm[i]? with
      | some (some x) => some (conv x)
      | _ => Option.none
    let m0 : KSim := { tt := t.regs.tt, km := t.regs.km.map (·.toNat) }
    match m0.run ent ins with
    | .none => .none
    | some m =>
      let here := (sm.take m.sm).filterMap id
      let first : Option Nat :=
        if rProd r = false then ent 0
        else if here.length < m.sm then Option.none
        else ((groupEntries r here).1.head?).map conv
      let reps := (List.range (rRlen r)).map (fun j => repWord r j env)
      let takes := repTakes r (fun i => if i = 0 then first else ent i) [] m0.km 0 reps
      let g : KGroup := ⟨slot, r, ahead, reps, m, takes⟩
      let vm := s.queue 5
      if mapOk r m takes = false ∨ entriesOk sm m.sm = false
          ∨ entriesOk t.qs.fq m.fq = false ∨ entriesOk vm m.vm = false then .none
      else if econdOk r (here.map (·.toNat)) = false then .none
      else if m.unk.isEmpty && entriesIn sm m.sm && entriesIn t.qs.fq m.fq && entriesIn vm m.vm then .take g
      else .wait g

/-- The slots tried in ascending order; after S has issued COMMIT only a rule that had matched (R311, R312). -/
def State.keyFirst (s : State) (ahead : List Ahead) : List Nat → KDec
  | [] => .none
  | i :: l =>
    match lget s.st.ks.slots i none with
    | none => s.keyFirst ahead l
    | some r =>
      match s.keyTry i r ahead with
      | .none => s.keyFirst ahead l
      | d => d

/-- Keystone's decision about the word at M's program counter. -/
def State.keyDecide (s : State) : KDec :=
  let t := s.st
  if t.ks.active = false then .none else
  let ahead := aheadFrom (s.text s.cur) s.now 4 t.em
  if t.ended then
    match t.ks.pend with
    | some i => s.keyFirst ahead [i]
    | none => .none
  else s.keyFirst ahead (List.range 64)

/-- An M word issues unchanged only where Keystone holds no group before it and forms none at it (R310, R311). -/
def State.keyGate (s : State) : Res Unit := do
  wait s.st.ks.window.isEmpty
  match s.keyDecide with
  | .none => pure ()
  | _ => .error .stall

end Sys2Proof.Machine
end

