-- ==== Sys2Proof/Machine/VecNum.lean ====
section
/-! DEFINITION. What the vector unit computes in one lane or across lanes: codes in, codes and flags out
(spec/08_vector_instructions.md). -/

namespace Sys2Proof

/-- Lane width in bits (Table 8.1). -/
def VTy.bits : VTy → Nat
  | .i8 | .e4m3 | .e5m2 => 8
  | .i16 | .bf16 | .fp16 => 16
  | .i32 | .fp32 => 32

/-- Number type of a lane; u reads an integer lane as unsigned (Table 8.1). -/
def VTy.nty (t : VTy) (u : Bool) : Machine.NTy :=
  match t with
  | .i8 => .int 8 (!u)
  | .i16 => .int 16 (!u)
  | .i32 => .int 32 (!u)
  | .bf16 => .bf16
  | .fp16 => .fp16
  | .fp32 => .fp32
  | .e4m3 => .e4m3
  | .e5m2 => .e5m2

/-- Narrow types and their widening partner (Table 8.3): the registers of the wide group, and the wide type. -/
def VTy.group (t : VTy) : Nat := 32 / t.bits

/-- The wide type of Table 8.3. -/
def VTy.wide (t : VTy) (u : Bool) : Machine.NTy := if t.isInt then .int 32 (!u) else .fp32

end Sys2Proof

namespace Sys2Proof.Machine

/-- The integer a code of an integer type holds. -/
def intOf (w : Nat) (signed : Bool) (c : Nat) : Int := if signed then sextInt w c else ((c % 2 ^ w : Nat) : Int)

/-- An exact integer as a lane: wrapped, or through sat with SAT (R154). -/
def intLane (w : Nat) (signed sat : Bool) (y : Int) : Nat × Nat :=
  if sat = false then (wrapInt w y, 0) else
  let lo : Int := if signed then -(2 ^ (w - 1)) else 0
  let hi : Int := if signed then 2 ^ (w - 1) - 1 else 2 ^ w - 1
  if y < lo then (wrapInt w lo, fSAT) else if hi < y then (wrapInt w hi, fSAT) else (wrapInt w y, 0)

/-- The five arithmetic functions of Table 8.2. -/
inductive VArith where
  | add | sub | mul | fma | fnma
  deriving DecidableEq, Repr

/-- The exact integer of Table 8.2. -/
def VArith.int (f : VArith) (a b d : Int) : Int :=
  match f with
  | .add => a + b
  | .sub => a - b
  | .mul => a * b
  | .fma => a * b + d
  | .fnma => d - a * b

/-- The exact value of Table 8.2, with INV for the invalid cases; NaN inputs raise nothing (R154). -/
def VArith.val (f : VArith) (a b d : FVal) : FVal × Nat :=
  match f with
  | .add => a.add b
  | .sub => a.add b.neg
  | .mul => a.mul b
  | .fma => if d.isNaN then (.nan, 0) else match a.mul b with
    | (.nan, x) => (.nan, x)
    | (p, _) => p.add d
  | .fnma => if d.isNaN then (.nan, 0) else match a.mul b with
    | (.nan, x) => (.nan, x)
    | (p, _) => d.add p.neg

/-- One lane of VADD to VFNMA (R154, R155). -/
def arithLane (f : VArith) (t : NTy) (sat : Bool) (a b d : Nat) : Nat × Nat :=
  match t with
  | .int w sg => intLane w sg sat (f.int (intOf w sg a) (intOf w sg b) (intOf w sg d))
  | t =>
    let (y, e) := f.val (t.value a) (t.value b) (t.value d)
    let (c, g) := rnd y t .rne sat
    (c, e ||| g)

/-- The sign bit of a floating-point code. -/
def NTy.signBit (t : NTy) (c : Nat) : Bool := bit c (t.width - 1)

/-- a orders below b; with strict zeros -0 orders below +0 (R155, R173). -/
def laneLt (t : NTy) (a b : Nat) : Bool :=
  let x := t.value a
  let y := t.value b
  x.lt y || (t.isFloat && x.isZero && y.isZero && t.signBit a && !t.signBit b)

/-- The lesser or greater of two lanes; NaN gives the canonical NaN (R155, R173). -/
def minMaxLane (t : NTy) (mx : Bool) (a b : Nat) : Nat :=
  if (t.value a).isNaN || (t.value b).isNaN then t.canonNaN
  else if mx then (if laneLt t a b then b else a)
  else if laneLt t b a then b else a

/-- One lane of VUN (R156). -/
def unLane (f : VUnFn) (t : NTy) (a : Nat) : Nat :=
  let w := t.width
  match t with
  | .int _ _ =>
    match f with
    | .abs => wrapInt w (sextInt w a).natAbs
    | .neg => wrapInt w (-(sextInt w a))
    | .not => 2 ^ w - 1 - a % 2 ^ w
    | .clz => clz w (a % 2 ^ w)
    | .popc => popc w a
  | t =>
    if (t.value a).isNaN then t.canonNaN else
    match f with
    | .neg => setFld a (w - 1) 1 (b2n (!t.signBit a))
    | _ => setFld a (w - 1) 1 0

/-- One lane of VLOG (R157). -/
def logLane (f : VLogFn) (w a b : Nat) : Nat :=
  match f with
  | .and => a &&& b
  | .or => a ||| b
  | .xor => a ^^^ b
  | .andn => a &&& (2 ^ w - 1 - b % 2 ^ w)

/-- One lane of VSH (R158). -/
def shLane (f : VShFn) (w a b : Nat) : Nat :=
  match f with
  | .shl => if b < w then a * 2 ^ b % 2 ^ w else 0
  | .shr => if b < w then a / 2 ^ b else 0
  | .sra => wrapInt w (sextInt w a / 2 ^ (min b w))

/-- One lane of VMULW (R162). -/
def mulwLane (t wt : NTy) (a b : Nat) : Nat × Nat :=
  match t with
  | .int w sg => (wrapInt 32 (intOf w sg a * intOf w sg b), 0)
  | t =>
    let (y, e) := (t.value a).mul (t.value b)
    let (c, g) := rnd y wt .rne false
    (c, e ||| g)

/-- One lane of VADDW (R163). -/
def addwLane (t wt : NTy) (sat : Bool) (a b : Nat) : Nat × Nat :=
  match t with
  | .int w sg => intLane 32 sg sat (intOf 32 sg a + intOf w sg b)
  | t =>
    let (y, e) := (wt.value a).add (t.value b)
    let (c, g) := rnd y wt .rne false
    (c, e ||| g)

/-- One lane of VNARR (R164). -/
def narrLane (t wt : NTy) (sat : Bool) (a : Nat) : Nat × Nat :=
  match t with
  | .int w sg => intLane w sg sat (intOf 32 sg a)
  | t => rnd (wt.value a) t .rne sat

/-- One lane of VCVT (R165). -/
def cvtLane (st dt : NTy) (m : Rnd) (sat : Bool) (a : Nat) : Nat × Nat :=
  match st, dt with
  | .int ws ss, .int wd _ =>
    if sat then rnd (st.value a) dt m false else (wrapInt wd (intOf ws ss a), 0)
  | _, _ => rnd (st.value a) dt m sat

/-- Relations of VCMP on exact values (R94). -/
def relLane (r : VRel) (t : NTy) (a b : Nat) : Bool :=
  let x := t.value a
  let y := t.value b
  if x.isNaN || y.isNaN then r == .ne else
  match r with
  | .eq => x.eq y
  | .ne => !x.eq y
  | .lt => x.lt y
  | .ge => !x.lt y
  | .le => !y.lt x
  | .gt => y.lt x

/-- One lane of VRINT (R169). -/
def rintLane (t : NTy) (m : Rnd) (a : Nat) : Nat :=
  match t.value a with
  | .nan => t.canonNaN
  | .inf _ => a
  | .fin neg n e =>
    if 0 ≤ e then a else
    let d := 2 ^ (-e).toNat
    let i := roundAt m neg (n / d) (n % d) d (n / d % 2 == 1)
    (rndFloat neg i 1 t .rtz false).1

/-- Exact distance test of R170 and R172: the fp32 magnitude code c lies less than its own ulp from num/den. -/
def withinUlp (c num den : Nat) : Bool :=
  match NTy.fp32.value c with
  | .fin _ m e =>
    let x := m * dyNum 1 e * den
    let y := num * dyDen e
    decide (x < y + dyNum 1 e * den) && decide (y < x + dyNum 1 e * den)
  | _ => false

/-- The fp32 magnitude codes that R170 and R172 allow for a positive value num/den. -/
def nearCodes (num den : Nat) : List Nat :=
  let l := (rndFloat false num den .fp32 .rtz false).1
  [l, l + 1, l + 2].filter (fun c => withinUlp c num den && decide (c ≤ NTy.fp32.maxMag))

/-- Fraction bits of the fixed-point exponential. -/
def expBits : Nat := 320

/-- The natural logarithm of 2 with expBits fraction bits. -/
def ln2Fixed : Nat := 0xb17217f7d1cf79abc9e3b39803f2f6af40f343267298b62d8a0d175b8baafa2be7b876206debac98

/-- Taylor terms of exp(x), x with expBits fraction bits, from term k with value t on. -/
def expTerms (x : Int) : Nat → Nat → Int → Int
  | 0, _, _ => 0
  | n + 1, k, t => t + expTerms x n (k + 1) (t * x / 2 ^ expBits / (k + 1))

/-- 2 to the a, a = m times 2 to the e with a sign and |a| at most 1/2, with expBits fraction bits. -/
def exp2Fixed (neg : Bool) (m : Nat) (e : Int) : Nat :=
  let x0 : Int := ((m * ln2Fixed * dyNum 1 e / dyDen e : Nat) : Int)
  let x := if neg then -x0 else x0
  (expTerms x 70 0 (2 ^ expBits)).toNat

/-- One lane of VEXP2F (R170); the free choice among the allowed codes is Config.exp2Pick. -/
def exp2Lane (a : Nat) : Nat × Nat :=
  match NTy.fp32.value a with
  | .nan => (NTy.fp32.canonNaN, 0)
  | .inf _ => (NTy.fp32.canonNaN, fINV)
  | .fin neg m e =>
    if m = 0 then (0x3F800000, 0)
    else if dyDen e < 2 * (m * dyNum 1 e) then (NTy.fp32.canonNaN, fINV)
    else
      let l := nearCodes (exp2Fixed neg m e) (2 ^ expBits)
      (lget l (Config.exp2Pick a % l.length) 0, fINX)

/-- Bitwise integer square root from bit n - 1 down. -/
def isqrtFrom (x : Nat) : Nat → Nat → Nat
  | 0, r => r
  | n + 1, r => let c := r + 2 ^ n; if c * c ≤ x then isqrtFrom x n c else isqrtFrom x n r

/-- Integer square root. -/
def isqrt (x : Nat) : Nat := isqrtFrom x (Nat.log2 x / 2 + 1) 0

/-- 1/sqrt(m times 2 to the e) as a numerator over 2 to 401, exact or with a set last bit where the root is
irrational, so that every comparison with a value of a number format comes out as for the root itself. -/
def rsqrtNum (m : Nat) (e : Int) : Nat :=
  let den := m * dyNum 1 e
  let x := 2 ^ 800 * dyDen e / den
  let r := isqrt x
  if r * r * den = 2 ^ 800 * dyDen e then 2 * r else 2 * r + 1

/-- The reciprocal lane from a positive exact num/den (R172): rounded for bf16 and fp16, a free choice among the
allowed codes for fp32. -/
def recipLane (t : NTy) (neg : Bool) (num den pick : Nat) : Nat × Nat :=
  if t ≠ .fp32 then rndQ neg num den t .rne false
  else
    let sign := if neg then 2 ^ 31 else 0
    match NTy.fp32.value NTy.fp32.maxMag with
    | .fin _ mm me =>
      if mm * dyNum 1 me * den < num then (sign + 0x7F800000, fOVF + fINX) else
      let l := nearCodes num den
      let c := lget l (pick % l.length) 0
      let exact := match NTy.fp32.value c with
        | .fin _ m e => m * dyNum 1 e * den == num * dyDen e
        | _ => false
      (sign + c, (if exact then 0 else fINX)
        + (if !exact && c != 0 && decide (c < 2 ^ 23) then fUNF else 0))
    | _ => (0, 0)

/-- The code of an infinity. -/
def NTy.infCode (t : NTy) (neg : Bool) : Nat := (rnd (.inf neg) t .rne false).1
/-- The code of a zero. -/
def NTy.zeroCode (t : NTy) (neg : Bool) : Nat := if neg then 2 ^ (t.width - 1) else 0

/-- One lane of VRCP (R172). -/
def rcpLane (t : NTy) (a : Nat) : Nat × Nat :=
  match t.value a with
  | .nan => (t.canonNaN, 0)
  | .inf n => (t.zeroCode n, 0)
  | .fin n m e =>
    if m = 0 then (t.infCode n, fDZE)
    else recipLane t n (dyDen e) (m * dyNum 1 e) (Config.rcpPick a)

/-- One lane of VRSQ (R172). -/
def rsqLane (t : NTy) (a : Nat) : Nat × Nat :=
  match t.value a with
  | .nan => (t.canonNaN, 0)
  | .inf n => if n then (t.canonNaN, fINV) else (0, 0)
  | .fin n m e =>
    if m = 0 then (t.infCode n, fDZE)
    else if n then (t.canonNaN, fINV)
    else recipLane t false (rsqrtNum m e) (2 ^ 401) (Config.rsqPick a)

/-- An integer limited to a range in which a product by its power of two has the same rounding. -/
def clampExp (n : Int) : Int := if n < -1000 then -1000 else if 1000 < n then 1000 else n

/-- One lane of VSCALEB (R171). -/
def scalebLane (a b : Nat) : Nat × Nat :=
  match NTy.fp32.value a, NTy.fp32.value b with
  | .nan, _ => (NTy.fp32.canonNaN, 0)
  | _, .nan => (NTy.fp32.canonNaN, 0)
  | .fin n m _, .inf false => if m = 0 then (NTy.fp32.canonNaN, fINV) else (NTy.fp32.infCode n, 0)
  | .inf n, .inf false => (NTy.fp32.infCode n, 0)
  | .fin n _ _, .inf true => (NTy.fp32.zeroCode n, 0)
  | .inf _, .inf true => (NTy.fp32.canonNaN, fINV)
  | .inf n, .fin _ _ _ => (NTy.fp32.infCode n, 0)
  | .fin n m e, .fin bn bm be =>
    let t : Int := ((bm * dyNum 1 be / dyDen be : Nat) : Int)
    rnd (.fin n m (e + clampExp (if bn then -t else t))) .fp32 .rne false

/-- Exact sum of the lanes from an accumulator on. -/
def sumVals : List FVal → FVal → Nat → FVal × Nat
  | [], acc, f => (acc, f)
  | v :: l, acc, f => let (y, g) := acc.add v; sumVals l y (f ||| g)

/-- VRED over the active lanes (R173): the code for lane 0 and the flags. -/
def redLanes (f : VRedFn) (t : NTy) (l : List Nat) : Nat × Nat :=
  let w := t.width
  match f, t with
  | .sum, .int _ _ => (wrapInt w ((l.map (sextInt w)).foldl (· + ·) 0), 0)
  | .sum, t =>
    let vs := l.map t.value
    if vs.any (·.isNaN) then (t.canonNaN, 0) else
    match vs with
    | [] => (0, 0)
    | v :: r =>
      let (y, e) := sumVals r v 0
      let (c, g) := rnd y t .rne false
      (c, e ||| g)
  | f, t =>
    let mx := f == .max
    match l with
    | [] =>
      (match t with
        | .int w _ => if mx then 2 ^ (w - 1) else 2 ^ (w - 1) - 1
        | .e4m3 => if mx then 0xFE else 0x7E
        | t => t.infCode mx, 0)
    | a :: r =>
      if l.any (fun c => (t.value c).isNaN) then (t.canonNaN, 0) else (r.foldl (minMaxLane t mx) a, 0)

/-- A candidate put behind every candidate not less than it (R174). -/
def topInsert (t : NTy) (x : Nat × Nat) : List (Nat × Nat) → List (Nat × Nat)
  | [] => [x]
  | y :: l => if (t.value y.2).lt (t.value x.2) then x :: y :: l else y :: topInsert t x l

/-- Lane indices of the candidates, the greatest value first, equal values by index (R174). -/
def topOrder (t : NTy) (l : List (Nat × Nat)) : List Nat :=
  ((l.filter (fun p => !(t.value p.2).isNaN)).foldl (fun acc x => topInsert t x acc) []).map Prod.fst

end Sys2Proof.Machine
end

