-- ==== Sys2Proof/Machine/Vector.lean ====
section
/-! DEFINITION. The words of V that compute on lanes: operands of registers, ports, the queue and zero, the mask, and one
meaning per word (spec/08_vector_instructions.md, spec/04 R94 to R98, spec/07 R145 to R147). -/

namespace Sys2Proof.Machine

/-! ### Ports -/

/-- Operands a configuration yields (R146). -/
def PortCfg.total (c : PortCfg) : Nat := c.counts.foldl (· * ·) 1

/-- Address of element k of operand n (R146). -/
def PortCfg.addr (c : PortCfg) (n k : Nat) : Nat :=
  wrapInt 64 ((c.base : Int) + nestAt c.counts c.strides n + (k : Int) * c.estride * ((2 ^ c.esz : Nat) : Int))

/-- The configuration an access to a port uses, in its direction (R145, R149). -/
def State.portCur (s : State) (p dir : Nat) : Res PortCfg :=
  match (lget s.st.qs.port p {}).cfgs with
  | [] => if s.st.ended then raiseF .queueUnderflow else .error .stall
  | none :: _ => raiseF .queueUnderflow
  | some c :: _ => if c.dir = dir then .ok c else raiseF .illegalOperand

/-- One operand of a port has been moved (R145). -/
def State.portNext (s : State) (p : Nat) (c : PortCfg) : State :=
  (s.modQs (fun q => { q with port := lmod q.port p (fun y =>
    if y.moved + 1 = c.total then { cfgs := y.cfgs.tail, moved := 0 } else { y with moved := y.moved + 1 }) })).join .v .s

/-- Elements of a port operand read one by one; those without an active byte are not accessed (R98, R147). -/
def State.portElems (s : State) (c : PortCfg) (n act : Nat) : List Nat → Res (List Nat × State)
  | [] => .ok ([], s)
  | k :: l => do
    let e := 2 ^ c.esz
    let (x, s) ← (if fld act (8 * e * k) (8 * e) = 0 then .ok (0, s) else s.loadN (c.addr n k) e c.oc)
    let (r, s) ← s.portElems c n act l
    pure (x :: r, s)

/-- One operand popped from a read port; act holds its active bits (R145 to R147). DESIGN CHOICE (assumption 119): each
element is fetched at the V word that pops it, the last moment that R147 allows. -/
def State.portRead (s : State) (p act : Nat) : Res (Nat × State) := do
  wait s.st.vamo.isNone
  let c ← s.portCur p 0
  let n := (lget s.st.qs.port p {}).moved
  let (xs, s) ← s.portElems c n act (List.range (128 / 2 ^ c.esz))
  pure (ofLanes (8 * 2 ^ c.esz) xs, s.portNext p c)

/-- Where the active bytes of a port operand go, each with the bits of it that are written, with every element checked
first (R98, R147). -/
def State.portPuts (s : State) (c : PortCfg) (n act v : Nat) : List Nat → Res (List (Target × Byte × Nat) × State)
  | [] => .ok ([], s)
  | k :: l => do
    let e := 2 ^ c.esz
    let (ws, s) ← (if fld act (8 * e * k) (8 * e) = 0 then .ok ([], s) else do
      let (t, s) ← s.reach (c.addr n k) e .wr
      pure ((List.range e).filterMap (fun j =>
        let m := lane 8 (e * k + j) act
        if m = 0 then none else some (t.plus j, BitVec.ofNat 8 (lane 8 (e * k + j) v), m)), s))
    let (r, s) ← s.portPuts c n act v l
    pure (ws ++ r, s)

/-- One operand pushed into a write port: its stores wait to perform (R145 to R147). -/
def State.portWrite (s : State) (p act v : Nat) : Res State := do
  wait s.st.vamo.isNone
  let c ← s.portCur p 1
  let n := (lget s.st.qs.port p {}).moved
  let (ws, s) ← s.portPuts c n act v (List.range (128 / 2 ^ c.esz))
  if ws.isEmpty then pure (s.portNext p c) else
  let s ← (if c.tv = 1 then s.tokIssue .v c.tok else .ok s)
  pure ((s.portNext p c).modSt (fun t => { t with psts := t.psts ++
    [{ tok := if c.tv = 1 then some c.tok else none, cls := c.oc, eng := .v, text := t.ev.pc
       writes := ws.map (fun w => (w.1, w.2.1))
       via := s.viaOf ((List.range (128 / 2 ^ c.esz)).map (c.addr n))
       cuts := ((List.range (128 / 2 ^ c.esz)).map (fun k =>
         ((List.range (2 ^ c.esz)).filter (fun j => lane 8 (2 ^ c.esz * k + j) act != 0)).length)).filter (· != 0)
       part := (ws.filter (fun w => w.2.2 != 255)).map (fun w => (w.1, w.2.2)) }] }))

/-! ### Operands -/

/-- Register operands of a word: allocated, and groups aligned (R60, R105). -/
def State.regOk (s : State) (n g : Nat) : Res Unit :=
  need (decide (n + g ≤ s.st.vregs) && n % g == 0) .illegalOperand

/-- The check of a source field. -/
def State.srcOk (s : State) (v : VSrc) (g : Nat) : Res Unit :=
  match v with
  | .reg n => s.regOk n g
  | _ => .ok ()

/-- The check of a destination field. -/
def State.dstOk (s : State) (v : VDst) (g : Nat) : Res Unit :=
  match v with
  | .reg n => s.regOk n g
  | .port _ => .ok ()

/-- A group of g registers as one number, from v[n] up (R105). -/
def State.rdGroup (s : State) (n : Nat) : Nat → Nat
  | 0 => 0
  | g + 1 => (s.rdV n).toNat + 2 ^ 1024 * s.rdGroup (n + 1) g

/-- g operands popped from a read port, the lowest register first (R105). -/
def State.portGroup (s : State) (p act : Nat) : Nat → Res (Nat × State)
  | 0 => .ok (0, s)
  | g + 1 => do
    let (x, s) ← s.portRead p (act % 2 ^ 1024)
    let (r, s) ← s.portGroup p (act / 2 ^ 1024) g
    pure (x + 2 ^ 1024 * r, s)

/-- A source of g registers with lanes of w bits; act holds the bits of it that take part (R60, R61, R105, R139). DESIGN
CHOICE (assumption 118): an entry of q fills every lane of the operand's own width, also where the operand is of another
width than the word's TY (VNARR, VADDW, VCVT, VQUANT, VDEQ). -/
def State.source (s : State) (v : VSrc) (g w act : Nat) : Res (Nat × State) :=
  match v with
  | .reg n => .ok (s.rdGroup n g, s)
  | .port p => s.portGroup p act g
  | .q => do
    let (x, s) ← s.pop 0
    pure (ofLanes w (List.replicate (1024 * g / w) x.toNat), s)
  | .zero => .ok (0, s)

/-- g registers from v[n] up written under a bit mask with a bound (R101). -/
def State.wrGroup (s : State) (n bound w mask v : Nat) : Nat → State
  | 0 => s
  | g + 1 => (s.wrV n bound w (mask % 2 ^ 1024) (v % 2 ^ 1024)).wrGroup (n + 1) bound w (mask / 2 ^ 1024)
      (v / 2 ^ 1024) g

/-- g operands pushed into a write port. -/
def State.portPutGroup (s : State) (p mask v : Nat) : Nat → Res State
  | 0 => .ok s
  | g + 1 => do
    let s ← s.portWrite p (mask % 2 ^ 1024) (v % 2 ^ 1024)
    s.portPutGroup p (mask / 2 ^ 1024) (v / 2 ^ 1024) g

/-- A destination of g registers written under a bit mask (R98, R105), with what an error in the lanes has made of the
values (R388). -/
def State.dest (s : State) (d : VDst) (g bound w mask v : Nat) : Res State :=
  let v := s.wrongNat (.lanes s.cur) v
  let s := s.spent (.lanes s.cur)
  match d with
  | .reg n => .ok (s.wrGroup n bound w mask v g)
  | .port p => s.portPutGroup p mask v g

/-- Activity of lanes 0 to cnt - 1: mask bit i times n (R93, R161). -/
def State.active (s : State) (n cnt : Nat) : List Bool := (List.range cnt).map (fun i => s.mask.getLsbD (i * n))

/-- The bits of the active lanes of width w. -/
def laneBits (w : Nat) (act : List Bool) : Nat := ofLanes w (act.map (fun b => if b then ones w else 0))

/-- Codes and flags of the active lanes: lanes of width w, with the flags ORed. -/
def packLanes (w : Nat) (act : List Bool) (l : List (Nat × Nat)) : Nat × Nat :=
  (ofLanes w (l.map Prod.fst),
    (act.zip l).foldl (fun f p => if p.1 then f ||| p.2.2 else f) 0)

/-! ### Words of one, two and three lane operands -/

/-- Bound of an element-wise word (Table 3.13). -/
def laneBound (t : VTy) : Nat := if t.isInt then 2 else 4

/-- A word whose lane i comes from lane i of one source; wa and wd are the lane widths, cnt the lanes (R161). -/
def State.lanes1 (s : State) (d : VDst) (a : VSrc) (wa wd cnt bound : Nat) (f : Nat → Nat × Nat) : Res State := do
  let ga := (wa * cnt + 1023) / 1024
  let gd := (wd * cnt + 1023) / 1024
  s.dstOk d gd
  s.srcOk a ga
  let act := s.active (min wa wd / 8) cnt
  let (x, s) ← s.source a ga wa (laneBits wa act)
  let (v, fl) := packLanes wd act ((lanesOf wa cnt x).map f)
  let s ← s.dest d gd bound wd (laneBits wd act) v
  pure (s.raiseBy bound fl)

/-- A word whose lane i comes from lane i of two sources (R155, R161). -/
def State.lanes2 (s : State) (d : VDst) (a b : VSrc) (wa wb wd cnt bound : Nat) (f : Nat → Nat → Nat × Nat) :
    Res State := do
  let ga := (wa * cnt + 1023) / 1024
  let gb := (wb * cnt + 1023) / 1024
  let gd := (wd * cnt + 1023) / 1024
  s.dstOk d gd
  s.srcOk a ga
  s.srcOk b gb
  let act := s.active (min (min wa wb) wd / 8) cnt
  let (x, s) ← s.source a ga wa (laneBits wa act)
  let (y, s) ← s.source b gb wb (laneBits wb act)
  let (v, fl) := packLanes wd act (List.zipWith f (lanesOf wa cnt x) (lanesOf wb cnt y))
  let s ← s.dest d gd bound wd (laneBits wd act) v
  pure (s.raiseBy bound fl)

/-- VFMA and VFNMA: the destination register is the third source (R155). -/
def State.lanes3 (s : State) (d : VDst) (a b : VSrc) (w bound : Nat) (f : Nat → Nat → Nat → Nat × Nat) :
    Res State := do
  s.dstOk d 1
  s.srcOk a 1
  s.srcOk b 1
  let cnt := 1024 / w
  let act := s.active (w / 8) cnt
  let (x, s) ← s.source a 1 w (laneBits w act)
  let (y, s) ← s.source b 1 w (laneBits w act)
  let z := match d with
    | .reg n => (s.rdV n).toNat
    | .port _ => 0
  let (v, fl) := packLanes w act
    (List.zipWith (fun f p => f p) (List.zipWith f (lanesOf w cnt x) (lanesOf w cnt y)) (lanesOf w cnt z))
  let s ← s.dest d 1 bound w (laneBits w act) v
  pure (s.raiseBy bound fl)

/-- VADD, VSUB, VMUL (R155). -/
def arith2 (f : VArith) (d : VDst) (a b : VSrc) (ty : VTy) (sg u : Nat) (s : State) : Res State :=
  s.lanes2 d a b ty.bits ty.bits ty.bits (1024 / ty.bits) (laneBound ty)
    (fun x y => arithLane f (ty.nty (u == 1)) (sg == 1) x y 0)

/-- VADD (R155). -/
def execVadd (d : VDst) (a b : VSrc) (ty : VTy) (sg u : Nat) (s : State) : Host.Outcome State Fault Refusal :=
  wordPre .v s (arith2 .add d a b ty sg u s)
/-- VSUB (R155). -/
def execVsub (d : VDst) (a b : VSrc) (ty : VTy) (sg u : Nat) (s : State) : Host.Outcome State Fault Refusal :=
  wordPre .v s (arith2 .sub d a b ty sg u s)
/-- VMUL (R155). -/
def execVmul (d : VDst) (a b : VSrc) (ty : VTy) (sg u : Nat) (s : State) : Host.Outcome State Fault Refusal :=
  wordPre .v s (arith2 .mul d a b ty sg u s)
/-- VFMA (R155). -/
def execVfma (d : VDst) (a b : VSrc) (ty : VTy) (sg u : Nat) (s : State) : Host.Outcome State Fault Refusal :=
  wordPre .v s (s.lanes3 d a b ty.bits (laneBound ty) (arithLane .fma (ty.nty (u == 1)) (sg == 1)))
/-- VFNMA (R155). -/
def execVfnma (d : VDst) (a b : VSrc) (ty : VTy) (sg u : Nat) (s : State) : Host.Outcome State Fault Refusal :=
  wordPre .v s (s.lanes3 d a b ty.bits (laneBound ty) (arithLane .fnma (ty.nty (u == 1)) (sg == 1)))

/-- VMIN and VMAX (R155). -/
def minMax (mx : Bool) (d : VDst) (a b : VSrc) (ty : VTy) (u : Nat) (s : State) : Res State :=
  s.lanes2 d a b ty.bits ty.bits ty.bits (1024 / ty.bits) (laneBound ty)
    (fun x y => (minMaxLane (ty.nty (u == 1)) mx x y, 0))

/-- VMIN (R155). -/
def execVmin (d : VDst) (a b : VSrc) (ty : VTy) (u : Nat) (s : State) : Host.Outcome State Fault Refusal :=
  wordPre .v s (minMax false d a b ty u s)
/-- VMAX (R155). -/
def execVmax (d : VDst) (a b : VSrc) (ty : VTy) (u : Nat) (s : State) : Host.Outcome State Fault Refusal :=
  wordPre .v s (minMax true d a b ty u s)

/-- VUN (R156). -/
def execVun (f : VUnFn) (d : VDst) (a : VSrc) (ty : VTy) (s : State) : Host.Outcome State Fault Refusal :=
  wordPre .v s (s.lanes1 d a ty.bits ty.bits (1024 / ty.bits) (laneBound ty) (fun x => (unLane f (ty.nty false) x, 0)))

/-- VLOG (R157). -/
def execVlog (f : VLogFn) (d : VDst) (a b : VSrc) (ty : VTy) (s : State) : Host.Outcome State Fault Refusal :=
  wordPre .v s (s.lanes2 d a b ty.bits ty.bits ty.bits (1024 / ty.bits) 2 (fun x y => (logLane f ty.bits x y, 0)))

/-- VSH (R158). -/
def execVsh (f : VShFn) (d : VDst) (a b : VSrc) (ty : VTy) (s : State) : Host.Outcome State Fault Refusal :=
  wordPre .v s (s.lanes2 d a b ty.bits ty.bits ty.bits (1024 / ty.bits) 2 (fun x y => (shLane f ty.bits x y, 0)))

/-- VADDI (R159). -/
def execVaddi (d : VDst) (a : VSrc) (imm : Nat) (s : State) : Host.Outcome State Fault Refusal :=
  wordPre .v s (s.lanes1 d a 32 32 32 2 (fun x => (wrapInt 32 ((x : Int) + sextInt 12 imm), 0)))

/-- VMULW (R162). -/
def execVmulw (d : VDst) (a b : VSrc) (ty : VTy) (u : Nat) (s : State) : Host.Outcome State Fault Refusal :=
  wordPre .v s (s.lanes2 d a b ty.bits ty.bits 32 (1024 / ty.bits) (laneBound ty)
    (mulwLane (ty.nty (u == 1)) (ty.wide (u == 1))))

/-- VADDW (R163). -/
def execVaddw (d : VDst) (a b : VSrc) (ty : VTy) (sg u : Nat) (s : State) : Host.Outcome State Fault Refusal :=
  wordPre .v s (s.lanes2 d a b 32 ty.bits 32 (1024 / ty.bits) (laneBound ty)
    (addwLane (ty.nty (u == 1)) (ty.wide (u == 1)) (sg == 1)))

/-- VNARR (R164). -/
def execVnarr (d : VDst) (a : VSrc) (ty : VTy) (sg u : Nat) (s : State) : Host.Outcome State Fault Refusal :=
  wordPre .v s (s.lanes1 d a 32 ty.bits (1024 / ty.bits) 2
    (narrLane (ty.nty (u == 1)) (ty.wide (u == 1)) (sg == 1)))

/-- VCVT (R165). -/
def execVcvt (d : VDst) (a : VSrc) (mode : Rnd) (sty ty : VTy) (sg u : Nat) (s : State) :
    Host.Outcome State Fault Refusal :=
  wordPre .v s (s.lanes1 d a sty.bits ty.bits (1024 / min sty.bits ty.bits) 4
    (cvtLane (sty.nty (u == 1)) (ty.nty (u == 1)) mode (sg == 1)))

/-- VRINT (R169). -/
def execVrint (d : VDst) (a : VSrc) (ty : VTy) (mode : Rnd) (s : State) : Host.Outcome State Fault Refusal :=
  wordPre .v s (s.lanes1 d a ty.bits ty.bits (1024 / ty.bits) 4 (fun x => (rintLane (ty.nty false) mode x, 0)))

/-- VEXP2F (R170). -/
def execVexp2f (d : VDst) (a : VSrc) (s : State) : Host.Outcome State Fault Refusal :=
  wordPre .v s (s.lanes1 d a 32 32 32 8 exp2Lane)

/-- VSCALEB (R171). -/
def execVscaleb (d : VDst) (a b : VSrc) (s : State) : Host.Outcome State Fault Refusal :=
  wordPre .v s (s.lanes2 d a b 32 32 32 32 4 scalebLane)

/-- VRCP (R172). -/
def execVrcp (d : VDst) (a : VSrc) (ty : VTy) (s : State) : Host.Outcome State Fault Refusal :=
  wordPre .v s (s.lanes1 d a ty.bits ty.bits (1024 / ty.bits) 8 (rcpLane (ty.nty false)))

/-- VRSQ (R172). -/
def execVrsq (d : VDst) (a : VSrc) (ty : VTy) (s : State) : Host.Outcome State Fault Refusal :=
  wordPre .v s (s.lanes1 d a ty.bits ty.bits (1024 / ty.bits) 8 (rsqLane (ty.nty false)))

/-! ### Comparison and selection -/

/-- VCMP (R94): each lane's result fills its bytes, ANDed with the top. An error in the lanes makes the results wrong (R388).
DESIGN CHOICE (assumption 141): an element of a port that R98 leaves unaccessed, since the lowest byte of its lane is masked
off, compares as 0 for the other bytes of the lane. -/
def execVcmp (r : VRel) (u : Nat) (a b : VSrc) (ty : VTy) (s : State) : Host.Outcome State Fault Refusal :=
  wordPre .v s (do
    need (decide (s.st.regs.pred.length < 16)) .illegalOperand
    s.srcOk a 1
    s.srcOk b 1
    let w := ty.bits
    let cnt := 1024 / w
    let act := laneBits w (s.active (w / 8) cnt)
    let (x, s) ← s.source a 1 w act
    let (y, s) ← s.source b 1 w act
    let t := ty.nty (u == 1)
    let new := ofLanes (w / 8) (List.zipWith (fun p q => if relLane r t p q then ones (w / 8) else 0)
      (lanesOf w cnt x) (lanesOf w cnt y))
    let new := s.wrongNat (.lanes s.cur) new
    let s := s.spent (.lanes s.cur)
    pure (s.modRegs (fun g => { g with pred := (BitVec.ofNat 128 new &&& s.mask) :: g.pred })))

/-- Every bit of g registers. -/
def allBits (g : Nat) : Nat := ones (1024 * g)

/-- VSEL (R96): every lane is written. DESIGN CHOICE (assumption 26): a port operand has all its elements accessed. -/
def execVsel (d : VDst) (a b : VSrc) (ty : VTy) (s : State) : Host.Outcome State Fault Refusal :=
  wordPre .v s (do
    s.dstOk d 1
    s.srcOk a 1
    s.srcOk b 1
    let w := ty.bits
    let act := s.active (w / 8) (1024 / w)
    let (x, s) ← s.source a 1 w (allBits 1)
    let (y, s) ← s.source b 1 w (allBits 1)
    let m := laneBits w act
    s.dest d 1 2 w (allBits 1) ((x &&& m) + (y - (y &&& m))))

/-! ### Quantization -/

/-- Code of element k in a narrow register (Table 8.4). -/
def codeAt (ty : VTy) (k x : Nat) : Nat := if ty = .i16 then lane 4 k x else lane 8 k x

/-- Element type of a code type under a scale word (Table 8.4). -/
def codeTy (ty : VTy) (sw : Nat) : NTy := if ty = .i16 then .n4 (swN4T sw) else ty.nty false

/-- The 128 scale words of the elements (R166). -/
def scaleOf (y k : Nat) : Nat := lane 16 (k / 16) y

/-- Bits of the scale words that the active elements use. DESIGN CHOICE (assumption 26): a port VB accesses no other scale
word. -/
def scaleBits (act : List Bool) : Nat :=
  laneBits 16 ((List.range 8).map (fun j => ((act.drop (16 * j)).take 16).any id))

/-- VQUANT (R167). -/
def execVquant (d : VDst) (a b : VSrc) (ty : VTy) (sg : Nat) (s : State) : Host.Outcome State Fault Refusal :=
  wordPre .v s (do
    s.dstOk d 1
    s.srcOk a 4
    s.srcOk b 1
    let act := s.active 1 128
    let (x, s) ← s.source a 4 32 (laneBits 32 act)
    let (y, s) ← s.source b 1 16 (scaleBits act)
    let cw := if ty = .i16 then 4 else 8
    let (v, fl) := packLanes cw act ((List.range 128).map (fun k =>
      let sw := scaleOf y k
      quantize (NTy.fp32.value (lane 32 k x)) (codeTy ty sw) (some sw) (sg == 1)))
    let m := laneBits cw act
    let m := if ty = .i16 then m + (ones 1024 - ones 512) else m
    let s ← s.dest d 1 4 8 m v
    pure (s.raiseBy 4 fl))

/-- VDEQ (R168). DESIGN CHOICE (assumption 118): an entry of q gives its low 8 bits to every byte of the codes, for TY 1
(n4) too, where the lanes of TY are 16 bits wide. -/
def execVdeq (d : VDst) (a b : VSrc) (ty : VTy) (s : State) : Host.Outcome State Fault Refusal :=
  wordPre .v s (do
    s.dstOk d 4
    s.srcOk a 1
    s.srcOk b 1
    let act := s.active 1 128
    let cw := if ty = .i16 then 4 else 8
    let (x, s) ← s.source a 1 8 (laneBits cw act)
    let (y, s) ← s.source b 1 16 (scaleBits act)
    let (v, fl) := packLanes 32 act ((List.range 128).map (fun k =>
      let sw := scaleOf y k
      dequantize (codeAt ty k x) (codeTy ty sw) (some sw)))
    let s ← s.dest d 4 4 32 (laneBits 32 act) v
    pure (s.raiseBy 4 fl))

/-! ### Across the lanes -/

/-- VRED (R173): lane 0 holds the result, the others 0, whatever the mask. -/
def execVred (f : VRedFn) (d : VDst) (a : VSrc) (ty : VTy) (s : State) : Host.Outcome State Fault Refusal :=
  wordPre .v s (do
    s.dstOk d 1
    s.srcOk a 1
    let w := ty.bits
    let cnt := 1024 / w
    let act := s.active (w / 8) cnt
    let (x, s) ← s.source a 1 w (allBits 1)
    let l := ((act.zip (lanesOf w cnt x)).filter (fun p => p.1)).map Prod.snd
    let (c, fl) := redLanes f (ty.nty false) l
    let s ← s.dest d 1 8 w (allBits 1) (c % 2 ^ w)
    pure (s.raiseBy 8 fl))

/-- VTOPK (R174). -/
def execVtopk (d : VDst) (a b : VSrc) (ty : VTy) (s : State) : Host.Outcome State Fault Refusal :=
  wordPre .v s (do
    s.dstOk d 1
    s.srcOk a 1
    s.srcOk b 1
    let w := ty.bits
    let cnt := 1024 / w
    let act := s.active (w / 8) cnt
    let (x, s) ← s.source a 1 w (allBits 1)
    let (y, s) ← s.source b 1 w (allBits 1)
    let cand := ((act.zip ((List.range cnt).zip (lanesOf w cnt x))).filter (fun p => p.1)).map Prod.snd
    let order := (topOrder (ty.nty false) cand).take (lane w 0 y)
    s.dest d 1 16 w (allBits 1) (ofLanes w ((List.range cnt).map (fun j => lget order j (ones w)))))

/-- VPERM (R175). -/
def execVperm (d : VDst) (a b : VSrc) (ty : VTy) (s : State) : Host.Outcome State Fault Refusal :=
  wordPre .v s (do
    s.dstOk d 1
    s.srcOk a 1
    s.srcOk b 1
    let w := ty.bits
    let cnt := 1024 / w
    let act := s.active (w / 8) cnt
    let (x, s) ← s.source a 1 w (allBits 1)
    let (y, s) ← s.source b 1 w (allBits 1)
    s.dest d 1 3 w (laneBits w act) (ofLanes w ((lanesOf w cnt y).map (fun j => lane w (j % cnt) x))))

/-- VSHUF (R175): the destination register holds the indices. -/
def execVshuf (d : VDst) (a b : VSrc) (ty : VTy) (s : State) : Host.Outcome State Fault Refusal :=
  wordPre .v s (do
    s.dstOk d 1
    s.srcOk a 1
    s.srcOk b 1
    let w := ty.bits
    let cnt := 1024 / w
    let act := s.active (w / 8) cnt
    let (x, s) ← s.source a 1 w (allBits 1)
    let (y, s) ← s.source b 1 w (allBits 1)
    let z := match d with
      | .reg n => (s.rdV n).toNat
      | .port _ => 0
    s.dest d 1 3 w (laneBits w act) (ofLanes w ((lanesOf w cnt z).map (fun j =>
      let j := j % (2 * cnt)
      if j < cnt then lane w j x else lane w (j - cnt) y))))

/-- VBCAST (R176). -/
def execVbcast (d : VDst) (a : VSrc) (lw : LaneW) (idx : Nat) (s : State) : Host.Outcome State Fault Refusal :=
  wordPre .v s (do
    s.dstOk d 1
    s.srcOk a 1
    let w := 1024 / lw.lanes
    let act := s.active (w / 8) lw.lanes
    let (x, s) ← s.source a 1 w (allBits 1)
    s.dest d 1 3 w (laneBits w act) (ofLanes w (List.replicate lw.lanes (lane w idx x))))

/-- VIOTA (R176). -/
def execViota (d : VDst) (imm : Nat) (s : State) : Host.Outcome State Fault Refusal :=
  wordPre .v s (do
    s.dstOk d 1
    s.dest d 1 3 32 (laneBits 32 (s.active 4 32))
      (ofLanes 32 ((List.range 32).map (fun (i : Nat) => wrapInt 32 (sextInt 12 imm + (i : Int))))))

/-- VSLIDE (R176). -/
def execVslide (d : VDst) (a : VSrc) (lw : LaneW) (n : Nat) (s : State) : Host.Outcome State Fault Refusal :=
  wordPre .v s (do
    s.dstOk d 1
    s.srcOk a 1
    let w := 1024 / lw.lanes
    let act := s.active (w / 8) lw.lanes
    let (x, s) ← s.source a 1 w (allBits 1)
    s.dest d 1 3 w (laneBits w act) (ofLanes w ((List.range lw.lanes).map (fun (i : Nat) =>
      let j := (i : Int) - sextInt 8 n
      if 0 ≤ j ∧ j < lw.lanes then lane w j.toNat x else 0))))

/-! ### Tiles and vectors -/

/-- Row and column of the k-th element of a sequence (Table 5.3), by element width in bytes. -/
def seqElem (w : Nat) (dir : Dir) (x k : Nat) : Nat × Nat :=
  match w with
  | 2 =>
    match dir with
    | .row => (x, k)
    | .col => (k, x)
    | .diag => (k, (k + x) % 64)
    | .adiag => (k, (x + 64 - k) % 64)
  | 1 =>
    let h := k / 2
    match dir with
    | .row => (x, k)
    | .col => (h, 2 * x + k % 2)
    | .diag => (h, 2 * ((h + x) % 64) + k % 2)
    | .adiag => (h, 2 * ((x + 64 - h) % 64) + k % 2)
  | _ =>
    let h := x / 32
    let c := x % 32
    match dir with
    | .row => (x, k)
    | .col => (32 * h + k, c)
    | .diag => (32 * h + k, (k + c) % 32)
    | .adiag => (32 * h + k, (c + 32 - k) % 32)

/-- Bit offset of the k-th element of a sequence in a tile (R106). -/
def seqBit (w : Nat) (dir : Dir) (x k : Nat) : Nat :=
  let (i, j) := seqElem w dir x k
  1024 * i + 8 * w * j

/-- Number type of a tile (Table 5.2). -/
def State.tileNTy (s : State) (t : Nat) : NTy := NTy.ofCode 0 (s.tileTy t)

/-- The tile as V may find it beside TCFGs that no token, queue or event has joined (R108), newest first: each view a type and
the bytes under it. V's own later writes stand in every view of the element width they were made under, and there is no view of
another width behind them (R102). -/
def tileTimes (late : Hazard → Bool) (pick : Nat → Nat → Bool) : Nat → List Hazard → Nat → Nat → List (Nat × Nat)
  | 0, _, ty, cur => [(ty, cur)]
  | n + 1, hs, ty, cur =>
    let near := hs.takeWhile (fun h => !(h.was.isSome && late h))
    let own := near.foldl (fun m h => if h.eng = .v then m ||| h.mask else m) 0
    let new := resolve late pick 65536 near 0 cur
    match hs.drop near.length with
    | [] => [(ty, new)]
    | h :: older =>
      let before := tileTimes late pick n older (h.was.getD 4) h.old
      (ty, new) :: (if own = 0 then before
        else (before.filter (fun p => codeBits p.1 == codeBits ty)).map (fun p => (p.1, mix p.2 new own)))

/-- One of the views of a tile, the nth choice where it has several. -/
def State.pickView (s : State) (views : List (Nat × Nat)) (n : Nat) : Nat × Nat :=
  match views with
  | [v] => v
  | _ => lget views (s.pick n % views.length) (4, 0)

/-- The views of a tile from which a VTR takes each of its elements (R104, R108): all of one element width. -/
def State.tileViews (s : State) (n : Nat) : List (Nat × Nat) :=
  let views := tileTimes (fun h => h.late s.now .v) (fun i j => choice s (2 ^ 18 + 16 * i + j)) 8 (hazards s.st (.t n))
    (s.tileTy n) (lget s.st.regs.t n 0#65536).toNat
  let views := views.map (fun p => (p.1, withRets s (.t n) (2 ^ 17 + 8192 * n) 65536 p.2))
  let base := s.pickView views 7
  views.filter (fun p => codeBits p.1 == codeBits base.1)

/-- VTR (R177, R178). -/
def execVtr (d : VDst) (t : Nat) (dir : Dir) (idx : Nat) (cv : Option VTy) (mode : Rnd) (s : State) :
    Host.Outcome State Fault Refusal :=
  wordPre .v s (do
    let views := s.tileViews t
    let wt := codeBits (views.headD (4, 0)).1
    let n := 1024 / wt
    let wv := match cv with
      | none => wt
      | some ty => ty.bits
    let g := max 1 (wv / wt)
    s.dstOk d g
    let cnt := max n (1024 / wv)
    let act := s.active (min wt wv / 8) cnt
    let (v, fl) := packLanes wv act ((List.range cnt).map (fun k =>
      if n ≤ k then (0, 0) else
      let x := s.pickView views (256 + k)
      let c := fld x.2 (seqBit (wt / 8) dir idx k) wt
      match cv with
      | none => (c, 0)
      | some ty => convert c (NTy.ofCode 0 x.1) (ty.nty false) mode false))
    let s ← s.dest d g 4 wv (laneBits wv act) v
    pure (s.raiseBy 4 fl))

/-- VTW (R177, R178). -/
def execVtw (a : VSrc) (t : Nat) (dir : Dir) (idx : Nat) (cv : Option VTy) (mode : Rnd) (s : State) :
    Host.Outcome State Fault Refusal :=
  wordPre .v s (do
    let tt := s.tileNTy t
    let wt := tt.width
    let n := 1024 / wt
    let wv := match cv with
      | none => wt
      | some ty => ty.bits
    let g := max 1 (wv / wt)
    s.srcOk a g
    let act := s.active (min wt wv / 8) n
    let (x, s) ← s.source a g wv (laneBits wv act)
    let codes := (List.range n).map (fun k =>
      let c := lane wv k x
      match cv with
      | none => (c, 0)
      | some ty => convert c (ty.nty false) tt mode false)
    let (_, fl) := packLanes wt act codes
    let ks := ((List.range n).zip (act.zip codes)).filter (fun p => p.2.1)
    let mask := ks.foldl (fun m p => setFld m (seqBit (wt / 8) dir idx p.1) wt (ones wt)) 0
    let val := ks.foldl (fun m p => setFld m (seqBit (wt / 8) dir idx p.1) wt p.2.2.1) 0
    let val := if cv.isSome then s.wrongNat (.lanes s.cur) val else val
    let s := if cv.isSome then s.spent (.lanes s.cur) else s
    pure ((s.wrT t 4 wt mask val).raiseBy 4 fl))

/-! ### VQPUSH -/

/-- VQPUSH (R142): V→S or V→M; the mask is ignored. -/
def execVqpush (q : Nat) (a : VSrc) (s : State) : Host.Outcome State Fault Refusal :=
  wordPre .v s (do
    s.srcOk a 1
    let (x, s) ← s.source a 1 8 (allBits 1)
    let s ← s.push (if q = 0 then 3 else 5) (some (BitVec.ofNat 64 (x % 2 ^ 64)))
    pure (s.modQs (fun k => if q = 0 then { k with vsPushed := true } else { k with vmPushed := true, vmFresh := true })))

end Sys2Proof.Machine
end

