-- ==== Sys2Proof/Machine/VecMem.lean ====
section
/-! DEFINITION. Gather, scatter and vector atomics (spec/08 R179 to R183). -/

namespace Sys2Proof.Machine

/-- A fault of a vector access names its element (R179). -/
def Exc.atLane (i : Nat) : Exc → Exc
  | .fault f => .fault { f with lane := i }
  | x => x

/-- The element addresses of a VG word (R179). -/
def vgAddrs (base offs sc sg : Nat) : List Nat :=
  (lanesOf 32 32 offs).map (fun o => wrapInt 64 ((base : Int) + intOf 32 (sg == 1) o * 2 ^ sc))

/-- The active elements with their addresses (R179). -/
def State.vgActive (s : State) (addrs : List Nat) : List (Nat × Nat) :=
  ((List.range 32).zip addrs).filter (fun p => s.mask.getLsbD (4 * p.1))

/-- Where the active elements go: every check before any access, the lowest failing element named (R179). -/
def State.vgReach (s : State) (n : Nat) (a : Acc) : List (Nat × Nat) → Res (List (Nat × Target) × State)
  | [] => .ok ([], s)
  | (i, va) :: l => do
    let (t, s) ← match s.reach va n a with
      | .error x => .error (x.atLane i)
      | .ok r => .ok r
    let (r, s) ← s.vgReach n a l
    pure ((i, t) :: r, s)

/-- The base and offsets of a VG word (R179). -/
def State.vgBase (s : State) (a : VSrc) (sc sg : Nat) : Res (List Nat × State) := do
  let (base, s) ← s.pop 0
  let (offs, s) ← s.source a 1 32 (laneBits 32 (s.active 4 32))
  pure (vgAddrs base.toNat offs sc sg, s)

/-- Elements loaded in order: the value of each active lane (R180). -/
def State.vgLoad (s : State) (n : Nat) : List (Nat × Target) → Res (List (Nat × Nat) × State)
  | [] => .ok ([], s)
  | (i, t) :: l => do
    let (bs, s) ← match s.readTarget s.cur t n 0 with
      | .error x => .error (x.atLane i)
      | .ok r => .ok r
    let (r, s) ← s.vgLoad n l
    pure ((i, natLE bs) :: r, s)

/-- VGATH (R180): the values land with a memory return, and until their token clears they may be read again (R183). -/
def execVgath (d : VDst) (a : VSrc) (w sc sg : Nat) (ty : VTy) (s : State) : Host.Outcome State Fault Refusal :=
  wordPre .v s (do
    s.dstOk d 1
    s.srcOk a 1
    wait (!s.st.storing .v (some 0))
    let (addrs, s) ← s.vgBase a sc sg
    let b := ty.bits
    let (ts, s) ← s.vgReach (b / 8) .rd (s.vgActive addrs)
    let (vs, s) ← s.vgLoad (b / 8) ts
    let s ← s.tokIssue .v w
    let val := vs.foldl (fun v p => setFld v (b * p.1) b p.2) 0
    let low := vs.foldl (fun v p => setFld v (b * p.1) b (ones b)) 0
    let high := laneBits b ((List.range (1024 / b)).map (fun j => decide (32 ≤ j) && s.mask.getLsbD (j * (b / 8))))
    let dst := match d with
      | .reg n => RetDst.v n
      | .port _ => RetDst.none
    pure (s.modSt (fun t => { t with rets := t.rets ++
      [{ dst := dst, val := val, mask := low + high, tok := w, eng := .v, width := b
         src := (s.vgActive addrs).map (fun p => { va := p.2, bytes := b / 8, pos := b * p.1 }) }] })))

/-- VSCAT (R181): the stores wait to perform, in ascending lane order. -/
def execVscat (d a : VSrc) (w sc sg : Nat) (ty : VTy) (s : State) : Host.Outcome State Fault Refusal :=
  wordPre .v s (do
    s.srcOk a 1
    s.srcOk d 1
    wait s.st.vamo.isNone
    let (addrs, s) ← s.vgBase a sc sg
    let b := ty.bits
    let act := s.active 4 32
    let (x, s) ← s.source d 1 b (laneBits b act)
    let (ts, s) ← s.vgReach (b / 8) .wr (s.vgActive addrs)
    let s ← s.tokIssue .v w
    let ws := ts.flatMap (fun p => (List.range (b / 8)).map (fun j =>
      (p.2.plus j, BitVec.ofNat 8 (fld x (b * p.1 + 8 * j) 8))))
    pure (s.modSt (fun t => { t with psts := t.psts ++
      [{ tok := some w, cls := 0, eng := .v, text := t.ev.pc, writes := ws, cuts := ts.map (fun _ => b / 8), via := s.viaOf ((s.vgActive addrs).map Prod.snd) }] })))

/-- The new word of a VAMO element (R182). -/
def vamoFn (f : VAmoFn) (old v : Nat) : Nat :=
  match f with
  | .add => amoFn .add 32 old v
  | .fadd => fadd32 old v
  | .max => amoFn .max 32 old v

/-- The checks of VAMO, element by element (R179, R182). -/
def State.vamoReach (s : State) : List (Nat × Nat) → Res (List (Nat × Target) × State)
  | [] => .ok ([], s)
  | (i, va) :: l => do
    let (t, s) ← match s.reach va 4 .amo with
      | .error x => .error (x.atLane i)
      | .ok (.spad c o, s) => .ok (Target.spad c o, s)
      | .ok _ => .error (.fault { code := .permission, addr := va, lane := i })
    let (r, s) ← s.vamoReach l
    pure ((i, t) :: r, s)

/-- The elements of a VAMO applied in ascending lane order (R182); a strand that waits on a word sees each (R195). -/
def State.vamoApply (s : State) (f : VAmoFn) (x : Nat) : List (Nat × Target) → Res (List (Nat × Nat) × State)
  | [] => .ok ([], s)
  | (i, t) :: l => do
    let (old, s) ← s.atomic s.cur t 4 .cluster (fun old => some (vamoFn f old (lane 32 i x)))
    let (r, s) ← (if l.isEmpty then s else s.watch).vamoApply f x l
    pure ((i, old) :: r, s)

/-- Where the old values of a VAMO land (R182). -/
def vamoDst : VSrc → RetDst
  | .reg n => .v n
  | _ => .none

/-- A VAMO's operands and checks at its issue, under its token: the data, and where each active element goes. Every earlier
access of V has performed (R182, R183). -/
def State.vamoIssue (s : State) (d a : VSrc) (w sc sg : Nat) : Res (Nat × List (Nat × Target) × State) := do
  s.srcOk a 1
  s.srcOk d 1
  wait (!s.st.storing .v none)
  let (addrs, s) ← s.vgBase a sc sg
  let (x, s) ← s.source d 1 32 (laneBits 32 (s.active 4 32))
  let (ts, s) ← s.vamoReach (s.vgActive addrs)
  let s ← s.tokIssue .v w
  pure (x, ts, s.modSt (fun t => t.fixed .v (fun _ => true)))

/-- The return of a VAMO, from the old values of its elements (R182). -/
def vamoRet (dst : RetDst) (w : Nat) (vs : List (Nat × Nat)) : Ret :=
  { dst := dst, val := vs.foldl (fun v p => setFld v (32 * p.1) 32 p.2) 0
    mask := vs.foldl (fun v p => setFld v (32 * p.1) 32 (ones 32)) 0, tok := w, eng := .v, width := 32 }

/-- VAMO (R182): applied at issue, element after element with no other access between them; the turn .later lets its
elements reach their banks one by one. The old values land with a memory return. -/
def execVamo (f : VAmoFn) (d a : VSrc) (w sc sg : Nat) (_ty : VTy) (s : State) : Host.Outcome State Fault Refusal :=
  wordPre .v s (do
    let (x, ts, s) ← s.vamoIssue d a w sc sg
    let (vs, s) ← s.vamoApply f x ts
    pure (s.modSt (fun t => { t with rets := t.rets ++ [vamoRet (vamoDst d) w vs] })))

end Sys2Proof.Machine
end

