-- ==== Sys2Proof/Machine/Tiles.lean ====
section
/-! DEFINITION. The tile words of M (spec/13_girder.md R294 to R296, spec/05 R106 to R108). What a word does is written once,
for the word as decoded and for the same word of a Keystone replacement, which takes its queue entries from its
group (R317). -/

namespace Sys2Proof.Machine

/-- The entries a replacement word takes from its group: S→M, fq and V→M, as pushed. -/
structure Feed where
  sm : Dbl
  fq : Word
  vm : Dbl
  deriving DecidableEq, Repr, Inhabited

/-- An S→M entry for an M word: from the queue, or from the group, converted as on any pop (R317). -/
def State.popSm (s : State) : Option Feed → Res (Dbl × State)
  | none => s.pop 1
  | some f =>
    let (v, fl) := qConvert (lget s.st.qs.src 1 15) (lget s.st.qs.snk 1 15) f.sm
    .ok (v, (s.raise fl).join .m .s)

/-- An M word that Keystone may rewrite. -/
def keyed (s : State) (r : Res State) : Host.Outcome State Fault Refusal :=
  wordPre .m s (do
    s.keyGate
    r)

/-- MNOP (R52). -/
def execMnop (s : State) : Host.Outcome State Fault Refusal :=
  word .m s (do
    s.keyGate
    pure s)

/-- Every bit of a tile. -/
def tileOnes : Nat := ones 65536

/-- An earlier TLD or TST of a tile has not completed (R108). -/
def Strand.tileBusy (t : Strand) (d : Nat) : Bool :=
  t.rets.any (fun r => r.eng == .m && r.dst == .t d) || t.psts.any (fun p => p.tile == some d)

/-- TCFG (R108): it starts once earlier M words have completed on the tile; the bytes stay only under KEEP with the same
width. -/
def tcfg (d keep ty : Nat) (s : State) : Res State := do
  wait (!s.st.tileBusy d)
  let same := keep == 1 && tyBytes ty == tyBytes (s.tileTy d)
  let s := if same then s.putT d 0 0 (some (s.tileTy d)) else s.putT d tileOnes 0 (some (s.tileTy d))
  pure (s.modRegs (fun r => { r with tt := r.tt.set d ty }))

/-- TZERO (R294). -/
def tzero (d : Nat) (s : State) : Res State := .ok (s.putT d tileOnes 0)

/-- Sequence x and element k of the 64 sequences of a tile with elements of w bytes (R107). -/
def seqAll (w : Nat) : List (Nat × Nat) :=
  (List.range 64).flatMap (fun x => (List.range (128 / w)).map (fun k => (x, k)))

/-- A tile whose element k of sequence x is given, with the flags ORed (R296). -/
def tileFrom (w : Nat) (dir : Dir) (f : Nat → Nat → Nat × Nat) : Nat × Nat :=
  (seqAll w).foldl (fun p q =>
    let (c, fl) := f q.1 q.2
    (setFld p.1 (seqBit w dir q.1 q.2) (8 * w) c, p.2 ||| fl)) (0, 0)

/-- Element k of sequence x of a tile. -/
def tileAt (w : Nat) (dir : Dir) (t x k : Nat) : Nat := fld t (seqBit w dir x k) (8 * w)

/-- TMOV (R296). -/
def tmov (d : Nat) (dd : Dir) (a : Nat) (da : Dir) (s : State) : Res State := do
  need (typesOk s.st.regs.tt (.tmov d dd a da)) .illegalOperand
  let w := tyBytes (s.tileTy d)
  let src := s.rdTM a
  pure (s.putT d tileOnes (tileFrom w dd (fun x k => (tileAt w da src x k, 0))).1)

/-- TSCAL (R296): every element times the popped factor. -/
def tscal (d : Nat) (dd : Dir) (a : Nat) (da : Dir) (feed : Option Feed) (s : State) : Res State := do
  need (typesOk s.st.regs.tt (.tscal d dd a da)) .illegalOperand
  let (e, s) ← s.popSm feed
  let t := s.tileNTy d
  let w := tyBytes (s.tileTy d)
  let f := NTy.fp32.value (e.toNat % 2 ^ 32)
  let src := s.rdTM a
  let (v, fl) := tileFrom w dd (fun x k =>
    let (y, i) := (t.value (tileAt w da src x k)).mul f
    let (c, g) := rnd y t .rne false
    (c, i ||| g))
  pure ((s.putT d tileOnes v).raise fl)

/-- TADD (R296): integer types wrap, floating-point types round by R154. -/
def tadd (d : Nat) (dd : Dir) (a : Nat) (da : Dir) (b : Nat) (db : Dir) (s : State) : Res State := do
  need (typesOk s.st.regs.tt (.tadd d dd a da b db)) .illegalOperand
  let t := s.tileNTy d
  let w := tyBytes (s.tileTy d)
  let xa := s.rdTM a
  let xb := s.rdTM b
  let (v, fl) := tileFrom w dd (fun x k => arithLane .add t false (tileAt w da xa x k) (tileAt w db xb x k) 0)
  pure ((s.putT d tileOnes v).raise fl)

/-- TCFG (R108). -/
def execTcfg (d keep : Nat) (ty : TileTy) (s : State) : Host.Outcome State Fault Refusal :=
  keyed s (tcfg d keep ty.code s)
/-- TZERO (R294). -/
def execTzero (d : Nat) (s : State) : Host.Outcome State Fault Refusal := keyed s (tzero d s)
/-- TMOV (R296). -/
def execTmov (d : Nat) (dd : Dir) (a : Nat) (da : Dir) (s : State) : Host.Outcome State Fault Refusal :=
  keyed s (tmov d dd a da s)
/-- TSCAL (R296). -/
def execTscal (d : Nat) (dd : Dir) (a : Nat) (da : Dir) (s : State) : Host.Outcome State Fault Refusal :=
  keyed s (tscal d dd a da none s)
/-- TADD (R296). -/
def execTadd (d : Nat) (dd : Dir) (a : Nat) (da : Dir) (b : Nat) (db : Dir) (s : State) :
    Host.Outcome State Fault Refusal :=
  keyed s (tadd d dd a da b db s)

/-- Base and pitch of TLD and TST, popped and checked (R295). -/
def State.tileArgs (s : State) (w : Nat) (a : Acc) : Res (Nat × Int × State) := do
  let (b, s) ← s.pop 1
  let (p, s) ← s.pop 1
  let base := b.toNat
  let pitch := p.toInt
  needAt (base % w == 0) .alignment base
  needAt (pitch % (w : Int) == 0) .alignment base
  need (decide (-(2 ^ 31 : Int) ≤ pitch) && decide (pitch < (2 ^ 31 : Int))) .illegalOperand
  s.rangeCheck (spanOf base 128 [(64, pitch)]) w a false false
  pure (base, pitch, s)

/-- Address of element k of sequence x. -/
def tileAddr (base : Nat) (pitch : Int) (w x k : Nat) : Nat := wrapInt 64 ((base : Int) + x * pitch + (k * w : Nat))

/-- The elements of a tile's memory image read in order, with the address of each (R295). -/
def State.tileLoad (s : State) (base : Nat) (pitch : Int) (w oc : Nat) (dir : Dir) :
    List (Nat × Nat) → Nat → Res (Nat × List RetSrc × State)
  | [], v => .ok (v, [], s)
  | (x, k) :: l, v => do
    let (c, s) ← s.loadN (tileAddr base pitch w x k) w oc
    let (v, r, s) ← s.tileLoad base pitch w oc dir l (setFld v (seqBit w dir x k) (8 * w) c)
    pure (v, { va := tileAddr base pitch w x k, bytes := w, pos := seqBit w dir x k } :: r, s)

/-- TLD (R295): a flush word; the values land with a memory return, and until then may be fixed later (R229). -/
def execTld (d : Nat) (dd : Dir) (oc w : Nat) (s : State) : Host.Outcome State Fault Refusal :=
  wordPre .m s (do
    let s ← s.flush
    wait (!s.st.storing .m (some oc))
    let b := tyBytes (s.tileTy d)
    let (base, pitch, s) ← s.tileArgs b .rd
    let (v, src, s) ← s.tileLoad base pitch b oc dd (seqAll b) 0
    let s ← s.tokIssue .m w
    pure (s.modSt (fun t => { t with rets := t.rets ++
      [{ dst := .t d, val := v, mask := tileOnes, tok := w, eng := .m, width := 8 * b, cls := oc, src := src }] })))

/-- Where the elements of a tile go, with every element checked first (R295). -/
def State.tilePuts (s : State) (base : Nat) (pitch : Int) (w : Nat) (dir : Dir) (v : Nat) :
    List (Nat × Nat) → Res (List (Target × Byte) × State)
  | [] => .ok ([], s)
  | (x, k) :: l => do
    let (t, s) ← s.reach (tileAddr base pitch w x k) w .wr
    let c := tileAt w dir v x k
    let ws := (List.range w).map (fun j => (t.plus j, BitVec.ofNat 8 (fld c (8 * j) 8)))
    let (r, s) ← s.tilePuts base pitch w dir v l
    pure (ws ++ r, s)

/-- TST (R295): a flush word; the tile is read at issue and its stores wait to perform. -/
def execTst (a : Nat) (da : Dir) (oc w : Nat) (s : State) : Host.Outcome State Fault Refusal :=
  wordPre .m s (do
    let s ← s.flush
    let b := tyBytes (s.tileTy a)
    let (base, pitch, s) ← s.tileArgs b .wr
    let (ws, s) ← s.tilePuts base pitch b da (s.rdTM a) (seqAll b)
    let s ← s.tokIssue .m w
    let via := s.viaOf ((seqAll b).map (fun p => tileAddr base pitch b p.1 p.2))
    pure (s.modSt (fun t => { t with psts := t.psts ++
      [{ tok := some w, cls := oc, eng := .m, text := t.em.pc, writes := ws, tile := some a, via := via
         cuts := (seqAll b).map (fun _ => b) }] })))

end Sys2Proof.Machine
end

