-- ==== Sys2Proof/Machine/GirderWords.lean ====
section
/-! DEFINITION. The M words of the Girder: leases and markers, command registers, MISSUE with its checks, the drain, and the
words of tensor chains (spec/13_girder.md R271 to R281, spec/14_tensor_chains.md R297 to R305, spec/07 R150, R151). -/

namespace Sys2Proof.Machine

/-! ### Leases -/

/-- The lease of core k ends, where it holds it (R273). -/
def Girder.endLease (g : Girder) (k : Nat) : Girder :=
  if g.holder = some k then { g with holder := none, prev := k % 4, lcnt := 0 } else g

/-- The acting strand's lease ends and its state becomes another (R272). -/
def State.leaseTo (s : State) (l : LeaseSt) (ask : Bool) : State :=
  (s.modGirder (clusterOf s.cur) (fun g => g.endLease s.cur)).modSt (fun t => { t with lease := l, leaseAsk := ask })

/-- MLEASE (R272): it completes once the strand has been granted the lease. -/
def execMlease (s : State) : Host.Outcome State Fault Refusal :=
  wordPre .m s (
    if s.st.leaseAsk then
      if s.st.lease = .waiting then .error .stall
      else .ok (s.modSt (fun t => { t with leaseAsk := false }))
    else .error (.hold (s.leaseTo .waiting true)))

/-- MFREE (R272): a flush word. -/
def execMfree (s : State) : Host.Outcome State Fault Refusal :=
  word .m s (do
    let s ← s.flush
    pure (s.leaseTo .none false))

/-- The lease before a MISSUE or MMARK (R272, R274): a lapsed strand waits for it again. -/
def State.needLease (s : State) : Res Unit :=
  match s.st.lease with
  | .none | .waiting => raiseF .lease
  | .lapsed => .error (.hold (s.modSt (fun t => { t with leaseAsk := true })))
  | .held => .ok ()

/-- Entries of a Girder queue that have not completed: commands and markers (R278). -/
def Girder.used (g : Girder) : Nat := g.queue.length

/-- MMARK (R272, R289): a flush word; a new window begins. -/
def execMmark (s : State) : Host.Outcome State Fault Refusal :=
  wordPre .m s (do
    let s ← s.flush
    s.needLease
    wait (decide ((s.girder (clusterOf s.cur)).used < 16))
    let s := s.modGirder (clusterOf s.cur) (fun g => { g with queue := g.queue ++ [.marker s.cur] })
    pure (s.modSt (fun t => { t with leaseAsk := false, window := [], winNo := t.winNo + 1, foul := [] })))

/-! ### Command registers -/

/-- A command register of M. -/
def State.regK (s : State) (k : Nat) : Nat := (lget s.st.regs.km k 0#1024).toNat

/-- MSET (R276). -/
def mset1 (k f imm : Nat) (s : State) : Res State :=
  .ok (s.modRegs (fun r => { r with km := lmod r.km k (fun v => setHw v f 1 imm) }))

/-- MSETQ (R276). -/
def msetq (k f : Nat) (feed : Option Feed) (s : State) : Res State := do
  let (x, s) ← s.popSm feed
  pure (s.modRegs (fun r => { r with km := lmod r.km k (fun v => setHw v f 4 x.toNat) }))

/-- MSET (R276). -/
def execMset (k f imm : Nat) (s : State) : Host.Outcome State Fault Refusal := keyed s (mset1 k f imm s)
/-- MSETQ (R276). -/
def execMsetq (k f : Nat) (s : State) : Host.Outcome State Fault Refusal := keyed s (msetq k f none s)

/-! ### Format word (Table 7.6) -/

def fAT (f : Nat) : Nat := fld f 0 4
def fBT (f : Nat) : Nat := fld f 4 4
def fRT (f : Nat) : Nat := fld f 8 4
def fASM (f : Nat) : Nat := fld f 12 2
def fBSM (f : Nat) : Nat := fld f 14 2
def fBLK (f : Nat) : Nat := fld f 16 2
/-- Block size of a format word. -/
def fBlock (f : Nat) : Nat := blkSize (fBLK f)

/-- The popped format word is one that its kind may use (R144). -/
def fmtOk (kind f : Nat) : Bool :=
  let rd := kind == 4
  fld f 18 14 == 0 && fBLK f != 3 && fASM f != 3 && fBSM f != 3 && decide (fAT f ≤ 6) && decide (fBT f ≤ 6)
    && (decide (fRT f ≤ 6) || fRT f == 8)
    && (if rd then fAT f == 0 && fBT f == 0 && fBSM f == 0 && (fRT f != 6 || fASM f != 0)
        else fRT f == 0 && (fAT f != 6 || fASM f != 0) && (fBT f != 6 || fBSM f != 0))

/-- Bytes of n elements of a type, with n4 codes packed (R31). -/
def runBytes (ty n : Nat) : Nat := (n * halfBytes ty + 1) / 2
/-- Alignment of an element type. -/
def tyAlign (ty : Nat) : Nat := max 1 (halfBytes ty / 2)

/-! ### Fields of a Girder command (Table 13.4) -/

def gCtl (k : Nat) : Nat := hw k 53
def gBank (k : Nat) : Nat := fld (gCtl k) 0 2
def gZero (k : Nat) : Bool := bit (gCtl k) 2
/-- Stationary buffer of GEMM and CONV, and of WLOAD. -/
def gSB (k : Nat) : Nat := if kKind k = 6 then fld (gCtl k) 0 1 else fld (gCtl k) 3 1
def gQS (k : Nat) : Bool := popsVm k
def gClear (k : Nat) : Bool := bit (gCtl k) 2
def gAct (k : Nat) : Nat := fld (gCtl k) 3 3
def gBias (k : Nat) : Bool := bit (gCtl k) 6
def gZmc (k : Nat) : Bool := bit (gCtl k) 7
def gDelta (k : Nat) : Bool := kKind k == 4 && bit (gCtl k) 8
def gBiasAddr (k : Nat) : Nat := fld k (16 * 55) 64
def gLo (k : Nat) : Nat := hw k 59
def gHi (k : Nat) : Nat := hw k 60
def gTable (k : Nat) : Nat := fld k (16 * 61) 32
/-- Depth K, rows M, columns N and first row of GEMM and CONV (R283, R284). -/
def gK (k : Nat) : Nat := if kKind k = 2 then kCount k 1 * kCount k 1 * kCount k 0 else kCount k 0
def gM (k : Nat) : Nat := if kKind k = 2 then 256 else kCount k 1
def gN (k : Nat) : Nat := if kKind k = 4 then kCount k 0 else hw k 54
def gRow (k : Nat) : Nat := if kKind k = 1 then hw k 55 else if kKind k = 2 then 0 else kCount k 2
/-- Row bytes, rows, column blocks and columns of a WLOAD. -/
def wRowBytes (k : Nat) : Nat := kCount k 0
def wRows (k : Nat) : Nat := kCount k 1
def wNB (k : Nat) : Nat := hw k 54
def wCols (k : Nat) : Nat := hw k 55

/-- Halfwords a kind uses beside those of Table 3.6. -/
def gUsed (kind : Nat) : List Nat :=
  commonHw ++ (match kind with
    | 1 => hwRange 6 9 ++ [14, 15, 21, 22] ++ hwRange 39 42 ++ [53, 54, 55]
    | 2 => hwRange 6 9 ++ [14, 15, 16] ++ hwRange 21 24 ++ hwRange 39 42 ++ [53, 54]
    | 3 => hwRange 6 9 ++ [14, 21, 22] ++ hwRange 39 42 ++ [53]
    | 4 => hwRange 10 13 ++ hwRange 14 17 ++ [31, 32] ++ hwRange 39 42 ++ hwRange 53 62
    | 5 => [15, 16, 53]
    | _ => hwRange 6 9 ++ [14, 15, 21, 22] ++ hwRange 39 42 ++ [53, 54, 55])

/-- Control bits that a kind has. -/
def gCtlBits (kind : Nat) : Nat :=
  match kind with
  | 1 | 2 | 3 => 4
  | 4 => 9
  | 5 => 2
  | _ => 1

/-- Item 4 of R277: KIND, FLAGS, halfword 1 and the format word (R66, R144). -/
def missueEnc (k f : Nat) : Bool :=
  let kind := kKind k
  decide (1 ≤ kind) && decide (kind ≤ 6) && fld (kFlags k) 1 6 == 0
    && (kind == 1 || kind == 2 || !kBit0 k) && fld k 24 8 == 0 && (!popsFq k || fmtOk kind f)

/-- The gang of the acting strand holds a bank (0 to 3) or buffer (4, 5). -/
def State.holds (s : State) (i : Nat) : Bool :=
  lget (s.girder (clusterOf s.cur)).owner i none == some s.st.gang

/-- The last WLOAD accepted into a buffer: unstarted in the queue, or run (R283). -/
def Girder.loadOf (g : Girder) (sb : Nat) : Option GCmd :=
  let q := g.queue.filterMap (fun e => match e with
    | .cmd c => if kKind c.k = 6 ∧ gSB c.k = sb ∧ c.done = false then some c else none
    | .marker _ => none)
  match q.getLast? with
  | some c => some c
  | none => lget g.sbLoad sb none

/-- The limits of R283 on K and the buffer. -/
def State.bufferOk (s : State) (k f : Nat) : Bool :=
  let kk := gK k
  let bs := fBlock f
  let blocked := fASM f == 1 || fBSM f == 1
  match (s.girder (clusterOf s.cur)).loadOf (gSB k) with
  | none => false
  | some w =>
    decide (1 ≤ kk) && decide (kk ≤ wRows w.k) && decide (runBytes (fBT f) (gN k) ≤ wRowBytes w.k)
      && (!blocked || kk % bs == 0)
      && (fBSM f != 1 || decide (kk / bs ≤ wNB w.k)) && (fBSM f != 2 || decide (1 ≤ wNB w.k))

/-- A number from 1 to hi. -/
def upTo1 (x hi : Nat) : Bool := decide (1 ≤ x) && decide (x ≤ hi)

/-- Bytes of the largest zero-mask tile of n lines (R259). -/
def zmMax (n : Nat) : Nat := 8 + cdiv n 8 * 8 + 72 * n

/-- Item 5 of R277 but for CHAIN: limits of Table 13.4 and of the kinds, banks and buffers held. -/
def State.gemmOk (s : State) (k f : Nat) : Bool :=
  upTo1 (gM k) 256 && upTo1 (gN k) 256 && decide (gRow k + gM k ≤ 256) && s.holds (gBank k) && s.holds (4 + gSB k)
    && (!gQS k || fASM f == 2) && s.bufferOk k f

/-- Limits of CONV (R284). -/
def State.convOk (s : State) (k f : Nat) : Bool :=
  let kw := kCount k 1
  let h := kCount k 2
  upTo1 (kCount k 0) 256 && (kw == 1 || kw == 3 || kw == 5 || kw == 7) && decide (h ≤ 8) && decide (kw ≤ 2 * h + 1)
    && fASM f != 1 && s.gemmOk k f

/-- Limits of ACCRD (R286, R287). -/
def State.accrdOk (s : State) (k f : Nat) : Bool :=
  let rt := fRT f
  let row := runBytes rt (gN k)
  upTo1 (gN k) 256 && upTo1 (kCount k 1) 256 && decide (gRow k + kCount k 1 ≤ 256) && s.holds (gBank k)
    && decide (gAct k ≤ 3) && decide (hw k 54 ≤ 63)
    && (gAct k != 2 || !((NTy.bf16.value (gLo k)).isNaN || (NTy.bf16.value (gHi k)).isNaN
        || (NTy.bf16.value (gHi k)).lt (NTy.bf16.value (gLo k))))
    && (gAct k != 3 || gTable k % 4 == 0)
    && (rt != 8 || fASM f == 0) && (rt != 6 || gN k % 2 == 0)
    && (!gZmc k || (kDS k 1 == (row : Int) && kCount k 1 * row % 64 == 0 && decide (kCount k 1 * row ≤ 65536)
        && kDst k % 8 == 0))

/-- Limits of WLOAD (R282). -/
def State.wloadOk (s : State) (k : Nat) : Bool :=
  upTo1 (wRowBytes k) 512 && upTo1 (wRows k) 512 && decide (wRowBytes k * wRows k ≤ 65536) && decide (wNB k ≤ 32)
    && upTo1 (wCols k) 256 && decide (wNB k * wCols k ≤ 8192) && s.holds (4 + gSB k)

/-- Item 5 of R277 for every kind. -/
def State.missueFields (s : State) (k f : Nat) : Bool :=
  let kind := kKind k
  onlyHw k (gUsed kind) && decide (gCtl k < 2 ^ gCtlBits kind) && (!kBsub k || kind == 4) && s.completionOk k
    && (match kind with
      | 1 => s.gemmOk k f
      | 2 => s.convOk k f
      | 3 => true
      | 4 => s.accrdOk k f
      | 5 => upTo1 (kCount k 1) 256 && decide (gRow k + kCount k 1 ≤ 256) && s.holds (gBank k)
      | _ => s.wloadOk k)

/-! ### Address checks (R279) -/

/-- One operand, table or destination range: span, alignment, access. -/
structure GRange where
  span : Int × Int
  align : Nat
  acc : Acc
  /-- It names an offset of the own scratchpad (R286). -/
  own : Bool := false

/-- Scale tables and words. -/
def scaleRange (addr n : Nat) : GRange := { span := spanOf addr (2 * n) [], align := 2, acc := .rd }

/-- The ranges a command names (R279, R281 to R287). -/
def gRanges (k f : Nat) : List GRange :=
  let bs := fBlock f
  match kKind k with
  | 1 =>
    [{ span := spanOf (kSrc k) (runBytes (fAT f) (gK k)) [(gM k, kSS k 1)], align := tyAlign (fAT f), acc := .rd }]
      ++ (if fASM f = 1 then [scaleRange (kAux k) (gM k * (gK k / bs))]
          else if fASM f = 2 ∧ gQS k = false then [scaleRange (kAux k) 1] else [])
  | 2 =>
    let n := 16 + 2 * kCount k 2
    [{ span := spanOf (kSrc k) (runBytes (fAT f) (kCount k 0)) [(n, kSS k 1), (n, kSS k 2)], align := tyAlign (fAT f), acc := .rd }]
      ++ (if fASM f = 2 ∧ gQS k = false then [scaleRange (kAux k) 1] else [])
  | 4 =>
    let m := kCount k 1
    let row := runBytes (fRT f) (gN k)
    (if gZmc k then [{ span := spanOf (kDst k) (zmMax (m * row / 64)) [], align := 8, acc := .wr }]
      else [{ span := spanOf (kDst k) row [(m, kDS k 1)], align := tyAlign (fRT f), acc := .wr }])
      ++ (if gBias k then [{ span := spanOf (gBiasAddr k) (4 * gN k) [], align := 4, acc := .rd }] else [])
      ++ (if gAct k = 3 then [{ span := spanOf (spadBase + gTable k) 512 [], align := 4, acc := .rd, own := true }] else [])
      ++ (if fASM f = 1 then [scaleRange (kAux k) (m * cdiv (gN k) bs)]
          else if fASM f = 2 then [scaleRange (kAux k) 1] else [])
  | 6 =>
    [{ span := spanOf (kSrc k) (wRowBytes k) [(wRows k, kSS k 1)], align := 1, acc := .rd }]
      ++ (if wNB k = 0 then [] else [scaleRange (kAux k) (wNB k * wCols k)])
  | _ => []

/-- An end of a range in the weight-store window is admitted for WLOAD only (R279). -/
def inWst (x : Int) : Bool :=
  match window (wrapInt 64 x) with
  | .wst _ => true
  | _ => false

/-- The address checks of a list of ranges. -/
def State.gCheck (s : State) (wst : Bool) : List GRange → Res Unit
  | [] => .ok ()
  | r :: l => do
    needAt (wst || (!inWst r.span.1 && !inWst r.span.2)) .permission (wrapInt 64 r.span.1)
    s.rangeCheck r.span r.align r.acc true false
    needAt (!r.own || decide (wrapInt 64 r.span.2 < spadBase + 0x80000)) .scratchBounds (wrapInt 64 r.span.1)
    s.gCheck wst l

/-! ### Tensor chains (R297 to R305) -/

def cpCores (x : Nat) : Nat := fld x 0 8
def cpIn (x k : Nat) : Nat := fld x (8 * (16 + 2 * k)) 8
def cpOut (x k : Nat) : Nat := fld x (8 * (17 + 2 * k)) 8
def cpCore (x i : Nat) : Nat := fld x (8 * (48 + 16 * i)) 8
def cpMode (x i : Nat) : Nat := fld x (8 * (49 + 16 * i)) 2
def cpBank (x i : Nat) : Nat := fld x (8 * (49 + 16 * i) + 2) 2
def cpScale (x i : Nat) : Nat := fld x (8 * (52 + 16 * i)) 16
def cpAddr (x i : Nat) : Nat := fld x (8 * (56 + 16 * i)) 64

/-- Lowest and highest core of the boundary after steps 0 to i (R301). -/
def cpSpan (x : Nat) : Nat → Nat × Nat
  | 0 => (cpCore x 0, cpCore x 0)
  | i + 1 =>
    let (lo, hi) := cpSpan x i
    if cpMode x (i + 1) = 1 then (lo, hi + 1) else (lo - 1, hi)

/-- Every step joins next to the boundary (R301). -/
def cpJoins (x : Nat) (i : Nat) : Bool :=
  let (lo, hi) := cpSpan x i
  let k := cpCore x (i + 1)
  (cpMode x (i + 1) == 1 && k == hi + 1 && decide (k < cpCores x)) || (cpMode x (i + 1) == 2 && k + 1 == lo)

/-- The limits of R300 and R301 on a program given as a number. -/
def progOk (x : Nat) : Bool :=
  let d := cpCores x
  upTo1 d 16 && fld x 8 120 == 0
    && (List.range 16).all (fun k => if k < d then cpIn x k != 0 && cpOut x k != 0 else cpIn x k == 0 && cpOut x k == 0)
    && (List.range d).all (fun i => fld x (8 * (49 + 16 * i) + 4) 4 == 0 && fld x (8 * (50 + 16 * i)) 16 == 0
        && fld x (8 * (54 + 16 * i)) 16 == 0)
    && cpMode x 0 == 0 && decide (cpCore x 0 < d)
    && (List.range (d - 1)).all (fun i => cpMode x (i + 1) != 0 && cpMode x (i + 1) != 3 && cpJoins x i)

/-- Left and right bond of a core (R298). -/
def bondL (bd : List (BitVec 16)) (k : Nat) : Nat := if k = 0 then 1 else (lget bd (k - 1) 0#16).toNat
def bondR (bd : List (BitVec 16)) (d k : Nat) : Nat := if k + 1 = d then 1 else (lget bd k 0#16).toNat

/-- Product of a factor over the cores of a list. -/
def prodOver (f : Nat → Nat) (l : List Nat) : Nat := (l.map f).foldl (· * ·) 1

/-- Step i of a program with the strand's bonds and batch (R303, R306). -/
def chainStep (x : Nat) (bd : List (BitVec 16)) (i bt : Nat) : ChStep :=
  let d := cpCores x
  let k := cpCore x i
  let (lo, hi) := cpSpan x i
  let (lo0, hi0) := cpSpan x (i - 1)
  let out := (List.range d).filter (fun j => decide (j < lo) || decide (hi < j))
  let inOld := if i = 0 then [] else (List.range d).filter (fun j => decide (lo0 ≤ j) && decide (j ≤ hi0))
  { step := i, mode := if i = 0 then 0 else cpMode x i, core := k, ik := cpIn x k, ok := cpOut x k
    below := prodOver (cpIn x) (out.filter (fun j => decide (k < j)))
    bt := bt
    pin := prodOver (cpIn x) out
    poutOld := prodOver (cpOut x) inOld
    dlOld := if i = 0 then 1 else bondL bd lo0
    drOld := if i = 0 then 1 else bondR bd d hi0
    dlK := bondL bd k
    drK := bondR bd d k
    src := cpBank x (i - 1)
    dst := cpBank x i
    addr := cpAddr x i
    scale := cpScale x i }

/-- Bonds of the boundary after a step. -/
def ChStep.dl (c : ChStep) : Nat := if c.mode = 1 then c.dlOld else c.dlK
def ChStep.dr (c : ChStep) : Nat := if c.mode = 2 then c.drOld else c.drK
/-- Output indices after a step. -/
def ChStep.pout (c : ChStep) : Nat := c.poutOld * c.ok
/-- Elements of the boundary after a step (R303). -/
def ChStep.count (c : ChStep) : Nat := c.bt * c.pin * c.pout * c.dl * c.dr
/-- Elements of the core's array (R297). -/
def ChStep.coreElems (c : ChStep) : Nat := c.dlK * (c.ik * c.ok) * c.drK

/-- The step that a CHAIN issued now would perform. -/
def State.chainNow (s : State) (k : Nat) : Option ChStep :=
  let c := s.st.chain
  match c.prog with
  | none => none
  | some x =>
    if c.opened then some (chainStep x s.st.regs.bd c.nxt c.batch) else some (chainStep x s.st.regs.bd 0 (kCount k 0))

/-- The step number the chain state names. -/
def ChainState.step (c : ChainState) : Nat := if c.opened then c.nxt else 0

/-- BOUNDARY_OVERFLOW (R304). -/
def overflowOk (c : ChStep) : Res Unit :=
  if 65536 < c.count then
    .error (.fault { code := .boundaryOverflow, cstep := c.step, aux := some c.core, data := min 0xFFFFFFFF c.count })
  else .ok ()

/-- COMMAND_FIELD of a CHAIN (R305). -/
def State.chainOk (s : State) (k f : Nat) (c : ChStep) : Bool :=
  gCtl k == s.st.chain.step && c.dlK != 0 && c.drK != 0 && decide (runBytes (fBT f) c.coreElems ≤ 65536)
    && (c.step == 0 || s.holds c.src) && s.holds c.dst && (c.step != 0 || upTo1 (kCount k 0) 65535)
    && fASM f != 1 && fBSM f != 1 && (fASM f == 2 || kAux k == 0)

/-- The ranges of a CHAIN: the core array, and on step 0 the input and its scale word. -/
def chainRanges (k f : Nat) (c : ChStep) : List GRange :=
  [{ span := spanOf c.addr (runBytes (fBT f) c.coreElems) [], align := tyAlign (fBT f), acc := .rd }]
    ++ (if c.step = 0 then
      [{ span := spanOf (kSrc k) (runBytes (fAT f) (c.pin * c.ik)) [(c.bt, kSS k 1)], align := tyAlign (fAT f), acc := .rd }]
        ++ (if fASM f = 2 then [scaleRange (kAux k) 1] else []) else [])

/-- The chain state after a CHAIN has issued (R302). -/
def ChainState.next (c : ChainState) (st : ChStep) : ChainState :=
  let d := cpCores (c.prog.getD 0)
  let n := st.step + 1
  if d ≤ n then { c with opened := false, nxt := 0 } else { c with opened := true, nxt := n, batch := st.bt }

/-! ### MISSUE -/

/-- The format word of a command that pops fq (R144). -/
def State.popFq (s : State) : Option Feed → Res (Nat × State)
  | some f => .ok (f.fq.toNat, s)
  | none =>
    match s.st.qs.fq with
    | [] => if s.producerDone 6 then raiseF .queueUnderflow else .error .stall
    | none :: _ => raiseF .queueUnderflow
    | some x :: l => .ok (x.toNat, (s.modQs (fun q => { q with fq := l })).join .m .s)

/-- The V→M entry of a command with QS (R280). -/
def State.popVm (s : State) : Option Feed → Res (Dbl × State)
  | none => s.pop 5
  | some f =>
    let (v, fl) := qConvert (lget s.st.qs.src 5 15) (lget s.st.qs.snk 5 15) f.vm
    .ok (v, s.raise fl)

/-- A command accepted under the lease; the lease lapses with its last command (R273, R277). -/
def Girder.accept (g : Girder) (c : GCmd) : Girder :=
  let g := { g with queue := g.queue ++ [.cmd c], lcnt := g.lcnt + 1 }
  if g.curLen ≤ g.lcnt then g.endLease c.core else g

/-- MISSUE (R277): its checks in their order, then the copy enters the Girder queue. -/
def missue (kn q : Nat) (feed : Option Feed) (off : Nat) (slot : Option (Nat × Nat)) (s : State) : Res State := do
  s.needLease
  let n := clusterOf s.cur
  let k := s.regK kn
  wait (decide ((s.girder n).used < 16))
  let (f, s) ← (if popsFq k then s.popFq feed else .ok (0, s))
  let (vm, s) ← (if popsVm k then do
      let (x, s) ← s.popVm feed
      pure (some (x.toNat % 65536), s)
    else .ok (none, s))
  need (missueEnc k f) .illegalEncoding
  let ch := if kKind k = 3 then s.chainNow k else none
  match ch with
  | some c => overflowOk c
  | none => pure ()
  need (s.missueFields k f) .commandField
  let rs ← (if kKind k = 3 then
      match ch with
      | none => raiseF .commandField
      | some c => if s.chainOk k f c then .ok (chainRanges k f c) else raiseF .commandField
    else .ok (gRanges k f))
  s.gCheck (kKind k == 6) rs
  let s ← (if kTv k then s.tokIssue .m (kTok k) else .ok s)
  let c : GCmd := { core := s.cur, k := k, text := off, fmt := f, vm := vm, mig := q == 1, since := s.now, ch := ch,
                    kslot := slot, slots := rs.flatMap (fun r => s.slotsIn r.span), win := s.st.winNo }
  let s := s.modGirder n (fun g => g.accept c)
  let lapse := (s.girder n).holder != some s.cur
  pure (s.modSt (fun t => { t with
    leaseAsk := false
    lease := if lapse then .lapsed else t.lease
    window := t.window ++ [c]
    deltaOut := t.deltaOut + b2n (gDelta k)
    chain := match ch with
      | some c => t.chain.next c
      | none => t.chain }))

/-- MISSUE (R277): a flush word where its command carries a token, an event or a completion action (R312). -/
def execMissue (kn q : Nat) (s : State) : Host.Outcome State Fault Refusal :=
  wordPre .m s (do
    s.keyGate
    let s ← (if flushCmd (s.regK kn) then s.flush else .ok s)
    missue kn q none s.st.em.pc none s)

/-! ### Bonds and order -/

/-- MBOND (R299). -/
def execMbond (n imm : Nat) (s : State) : Host.Outcome State Fault Refusal :=
  wordPre .m s (do
    need (!s.st.chain.opened) .illegalOperand
    pure (s.modRegs (fun r => { r with bd := r.bd.set n (BitVec.ofNat 16 imm) })))

/-- MORDER (R301). -/
def execMorder (s : State) : Host.Outcome State Fault Refusal :=
  wordPre .m s (do
    let (e, s) ← s.pop 1
    let va := e.toNat
    needAt (va % 16 == 0) .alignment va
    let off ← match window va with
      | .spad none off => .ok off
      | _ => .error (.fault { code := .scratchBounds, addr := va })
    needAt (decide (off < s.st.allot)) .scratchBounds va
    let s ← s.scrub (.spad s.cur off) 1
    let d := mnat (s.core s.cur).spad off 1
    needAt (decide (off + 48 + 16 * d ≤ s.st.allot)) .scratchBounds va
    need (!s.st.chain.opened) .illegalOperand
    let s ← s.scrub (.spad s.cur off) (48 + 16 * d)
    let x := mnat (s.core s.cur).spad off (48 + 16 * d)
    need (progOk x) .illegalOperand
    pure (s.modSt (fun t => { t with chain := { t.chain with prog := some x } })))

/-! ### MQDRAIN -/

/-- The commands of core k in a Girder queue that have not started. -/
def Girder.unstarted (g : Girder) (k : Nat) : List GCmd :=
  g.queue.filterMap (fun e => match e with
    | .cmd c => if c.core = k ∧ c.started = false then some c else none
    | .marker _ => none)

/-- MQDRAIN fixes its set: every unstarted command of the strand is cancelled, and the chain closes (R151, R302). -/
def State.cancelGirder (s : State) : State :=
  let n := clusterOf s.cur
  let cs := (s.girder n).unstarted s.cur
  let s := s.modGirder n (fun g => { g with queue := g.queue.filter (fun e => match e with
    | .cmd c => c.core != s.cur || c.started
    | .marker _ => true) })
  let s := cs.foldl (fun s c => s.cancelCmd .m c.k) s
  (s.modSt (fun t => { t with
    cancelled := true
    deltaOut := t.deltaOut - (cs.filter (fun c => gDelta c.k)).length
    chain := { t.chain with opened := false, nxt := 0 } })).dropRetired s.cur

/-- fq drained to its marker (R150). -/
def State.drainFq (s : State) : Res (Bool × State) :=
  match toMarker s.st.qs.fq with
  | some l => .ok (true, (s.modQs (fun q => { q with fq := l })).join .m .s)
  | none =>
    if s.producerDone 6 then raiseF .queueUnderflow else .ok (false, s.modQs (fun q => { q with fq := [] }))

/-- MQDRAIN's turn to V→M, once decided to drain it. -/
def State.drainVm (s : State) : Res State := do
  let (done, s) ← s.drainQueue 5
  if done then pure ((s.setDrain .m 4).modQs (fun q => { q with vmFresh := !(lget q.q 5 []).isEmpty }))
  else .error (.hold s)

/-- MQDRAIN (R150, R151): a flush word. -/
def execMqdrain (s : State) : Host.Outcome State Fault Refusal :=
  wordPre .m s (do
    let s ← s.flush
    let s := if s.st.cancelled then s else s.cancelGirder
    let s ← s.drainFrom .m (fun i s => if i = 0 then s.drainQueue 1 else s.drainFq) [0, 1]
    let s := if s.drainAt .m = 2 then
        s.setDrain .m (if (s.queue 5).any (·.isNone) || s.st.qs.vmFresh then 3 else 4)
      else s
    let s ← (if s.drainAt .m = 3 then s.drainVm else .ok s)
    match s.markIf s.st.qs.msPushed 4 with
    | .error .stall => .error (.hold s)
    | r => do
      let s ← r
      pure (((s.setDrain .m 0).modQs (fun q => { q with msPushed := false })).modSt (fun t =>
        { t with cancelled := false })))

end Sys2Proof.Machine
end

