-- ==== Sys2Proof/Machine/Girder.lean ====
section
/-! DEFINITION. The Girder's commands as they run, its leases, replay and migration (spec/13_girder.md R271 to R293,
spec/14_tensor_chains.md R303 to R308). A command runs in one step, but for the operand bytes that it has read ahead (assumption 9). -/

namespace Sys2Proof.Machine

/-! ### Banks, elements, blocks -/

/-- An element of a bank: 256 rows of 256 fp32 codes (R271). -/
def bankGet (b : Memory) (row col : Nat) : Nat := mnat b (1024 * row + 4 * col) 4
def bankPut (b : Memory) (row col v : Nat) : Memory := mputn b (1024 * row + 4 * col) 4 v
/-- A row's codes put from a column on. -/
def bankRow (b : Memory) (row : Nat) (l : List Nat) : Memory := mputs b (1024 * row) (l.flatMap (bytesLE 4))

/-- Flags that a Girder command reports: INV and OVF, and SAT of a readout (R44). -/
def girFlags (f : Nat) : Nat := f &&& (fINV + fOVF + fSAT)

/-- The right to access memory of a Girder command. -/
def GCmd.who (c : GCmd) : Who := { core := c.core, gir := true, slots := c.slots, cWr := kKind c.k == 4 && gZmc c.k, ahead := c.ahead }

/-- Code of element i of a packed run (R31). -/
def State.elem (s : State) (w : Who) (base : Int) (ty i : Nat) : Res (Nat × State) := do
  let h := halfBytes ty
  if h = 1 then
    let (b, s) ← s.cmdRd w (wrapInt 64 (base + (i / 2 : Nat)))
    pure (fld b.toNat (4 * (i % 2)) 4, s)
  else s.cmdNat w (wrapInt 64 (base + (i * (h / 2) : Nat))) (h / 2)

/-- Elements given by base and index. -/
def State.elems (s : State) (w : Who) (ty : Nat) : List (Int × Nat) → Res (List Nat × State)
  | [] => .ok ([], s)
  | (b, i) :: l => do
    let (x, s) ← s.elem w b ty i
    let (r, s) ← s.elems w ty l
    pure (x :: r, s)

/-- n scale words from an address on. -/
def State.scales (s : State) (w : Who) (addr : Nat) (n : Nat) : Res (List Nat × State) := do
  let (bs, s) ← s.cmdRds w addr (2 * n)
  pure (lanesOf 16 n (natLE bs), s)

/-- One output element: blocks in ascending K (R45, R283). a and b give the codes at k, sa and sb the scale words of a
block. -/
def cell (ta tb bs kk : Nat) (a b : Nat → Nat) (sa sb : Nat → Option Nat) (acc : Nat) : Nat × Nat :=
  (List.range (cdiv kk bs)).foldl (fun p j =>
    let ks := (List.range (min bs (kk - j * bs))).map (· + j * bs)
    let (x, f) := blockSum (ks.map (fun k =>
      (dequantExact (a k) (elemTy ta (sa j)) (sa j), dequantExact (b k) (elemTy tb (sb j)) (sb j)))) (.fin false 0 0)
    let (y, g) := accumulate p.1 x
    (y, p.2 ||| f ||| g)) (acc, 0)

/-! ### Stationary buffers -/

/-- A stationary buffer as loaded: its bytes, scale words, and the WLOAD's register. -/
structure Buf where
  bytes : Memory
  scale : Memory
  k : Nat
  deriving DecidableEq, Repr, Inhabited

/-- Element (k, n) of a buffer (R283). -/
def Buf.get (b : Buf) (ty k n : Nat) : Nat :=
  let h := halfBytes ty
  let base := k * wRowBytes b.k
  if h = 1 then fld (mget b.bytes (base + n / 2)).toNat (4 * (n % 2)) 4 else mnat b.bytes (base + n * (h / 2)) (h / 2)

/-- Scale word (j, n); a word that the WLOAD did not fill is open (R282). -/
def Buf.scaleAt (b : Buf) (j n : Nat) : Nat :=
  if j < wNB b.k ∧ n < wCols b.k then mnat b.scale (2 * (n * wNB b.k + j)) 2
  else Config.freeBits (b.k * 2 ^ 32 + n * 256 + j) % 65536

/-- The rows of a WLOAD. -/
def State.loadRows (s : State) (c : GCmd) : Nat → Res (Memory × State)
  | 0 => .ok ([], s)
  | n + 1 => do
    let (m, s) ← s.loadRows c n
    let (bs, s) ← s.cmdRds c.who (wrapInt 64 ((kSrc c.k : Int) + (n : Int) * kSS c.k 1)) (wRowBytes c.k)
    pure (mputs m (n * wRowBytes c.k) bs, s)

/-- What a WLOAD reads (R282). -/
def State.loadBuf (s : State) (c : GCmd) : Res (Buf × State) := do
  let (m, s) ← s.loadRows c (wRows c.k)
  let (bs, s) ← s.cmdRds c.who (kAux c.k) (2 * (wNB c.k * wCols c.k))
  pure (⟨m, mputs [] 0 bs, c.k⟩, s)

/-- The buffer a command uses as it stands. -/
def Girder.buf (g : Girder) (sb : Nat) : Buf :=
  ⟨lget g.sbs sb [], lget g.sbScale sb [], ((lget g.sbLoad sb none).map (·.k)).getD 0⟩

/-- WLOAD (R282). -/
def State.runWload (s : State) (n : Nat) (c : GCmd) : Res State := do
  let (b, s) ← s.loadBuf c
  let sb := gSB c.k
  pure (s.modGirder n (fun g => { g with
    sbs := g.sbs.set sb b.bytes, sbScale := g.sbScale.set sb b.scale, sbLoad := g.sbLoad.set sb (some c) }))

/-! ### GEMM and CONV -/

/-- Where A element (m, k) lies: base and index of its run (R283, R284). -/
def aPlace (c : GCmd) (m k : Nat) : Int × Nat :=
  if kKind c.k = 1 then ((kSrc c.k : Int) + (m : Int) * kSS c.k 1, k) else
  let ch := kCount c.k 0
  let kw := kCount c.k 1
  let h := kCount c.k 2
  let tap := k / ch
  let x := m % 16 + h - (kw - 1) / 2 + tap % kw
  let y := m / 16 + h - (kw - 1) / 2 + tap / kw
  ((kSrc c.k : Int) + (y : Int) * kSS c.k 1 + (x : Int) * kSS c.k 2, k % ch)

/-- Scale words of A for row m: by block, or one, or none. -/
def State.aScales (s : State) (c : GCmd) (m : Nat) : Res ((Nat → Option Nat) × State) :=
  let nb := gK c.k / fBlock c.fmt
  match fASM c.fmt with
  | 0 => .ok (fun _ => none, s)
  | 1 => do
    let (l, s) ← s.scales c.who (wrapInt 64 ((kAux c.k : Int) + (2 * m * nb : Nat))) nb
    pure (fun j => some (lget l j 0), s)
  | _ =>
    match c.vm with
    | some x => .ok (fun _ => some x, s)
    | none => do
      let (x, s) ← s.cmdNat c.who (kAux c.k) 2
      pure (fun _ => some x, s)

/-- Scale words of B for column n. -/
def Buf.scales (b : Buf) (fmt n : Nat) : Nat → Option Nat :=
  match fBSM fmt with
  | 0 => fun _ => none
  | 1 => fun j => some (b.scaleAt j n)
  | _ => fun _ => some (b.scaleAt 0 0)

/-- One row of GEMM or CONV over a bank (R283): fin gives the new element from the old one and the start value's sum. -/
def State.gemmRow (s : State) (c : GCmd) (b : Buf) (apart : Bool) (m : Nat) (old : List Nat) :
    Res (List Nat × Nat × State) := do
  let f := c.fmt
  let (a, s) ← s.elems c.who (fAT f) ((List.range (gK c.k)).map (aPlace c m))
  let (sa, s) ← s.aScales c m
  let out := old.mapIdx (fun n x =>
    let start := if gZero c.k then 0 else x
    let get := fun k => b.get (fBT f) k n
    if apart then
      let (y, f1) := cell (fAT f) (fBT f) (fBlock f) (gK c.k) (fun k => lget a k 0) get sa (b.scales f n) 0
      let (z, f2) := accumulate start (NTy.fp32.value y)
      (z, f1 ||| f2)
    else cell (fAT f) (fBT f) (fBlock f) (gK c.k) (fun k => lget a k 0) get sa (b.scales f n) start)
  pure (out.map Prod.fst, out.foldl (fun x p => x ||| p.2) 0, s)

/-- The rows of GEMM or CONV, m ascending. -/
def State.gemmRows (s : State) (n : Nat) (c : GCmd) (b : Buf) (apart : Bool) : Nat → Res (Nat × State)
  | 0 => .ok (0, s)
  | m + 1 => do
    let (f, s) ← s.gemmRows n c b apart m
    let bank := lget (s.girder n).banks (gBank c.k) []
    let row := gRow c.k + m
    let (l, g, s) ← s.gemmRow c b apart m ((List.range (gN c.k)).map (bankGet bank row))
    pure (f ||| g, s.modGirder n (fun g => { g with banks := lmod g.banks (gBank c.k) (fun bk => bankRow bk row l) }))

/-- Flags of a Girder command set in its strand: they win over a clear of the same cycle (R44). DESIGN CHOICE (assumption 116):
they are set in the step that moves the payload, where R44 asks only that they be set by the time the command's token
clears. -/
def State.raiseAt (s : State) (k f : Nat) : State := s.modStrand k (fun t => t.raise (girFlags f))

/-- GEMM and CONV (R283, R284); apart says that another Girder formed the sum from +0 (R292). -/
def State.runGemm (s : State) (n : Nat) (c : GCmd) (b : Buf) (apart : Bool) : Res State := do
  let (f, s) ← s.gemmRows n c b apart (gM c.k)
  pure (s.raiseAt c.core f)

/-! ### CHAIN -/

/-- The product of input indices of a core's own place: ins(p, k, i) (R306). -/
def ChStep.ins (c : ChStep) (p i : Nat) : Nat := p / c.below * c.ik * c.below + i * c.below + p % c.below

/-- Old boundary element (R303). -/
def ChStep.old (c : ChStep) (b p q l r : Nat) : Nat :=
  (((b * (c.pin * c.ik) + p) * c.poutOld + q) * c.dlOld + l) * c.drOld + r

/-- Core element (R297). -/
def ChStep.coreAt (c : ChStep) (l nn r : Nat) : Nat := (l * (c.ik * c.ok) + nn) * c.drK + r

/-- One element of the new boundary (R306): t gives the old boundary or the input, g the core's codes. -/
def ChStep.elem (c : ChStep) (fmt : Nat) (t g : Nat → Nat) (sx : Option Nat) (e : Nat) : Nat × Nat :=
  let r := e % c.dr
  let l := e / c.dr % c.dl
  let q := e / (c.dr * c.dl) % c.pout
  let p := e / (c.dr * c.dl * c.pout) % c.pin
  let b := e / (c.dr * c.dl * c.pout * c.pin)
  let sc := if fBSM fmt = 2 then some c.scale else none
  let run (ta kk : Nat) (a w : Nat → Nat) (sa : Option Nat) : Nat × Nat :=
    cell ta (fBT fmt) (fBlock fmt) kk (fun k => t (a k)) (fun k => g (w k)) (fun _ => sa) (fun _ => sc) 0
  match c.mode with
  | 0 => run (fAT fmt) c.ik (fun k => b * (c.pin * c.ik) + c.ins p k) (fun k => c.coreAt l (k * c.ok + q) r) sx
  | 1 =>
    let o := q % c.ok
    run 8 (c.drOld * c.ik) (fun k => c.old b (c.ins p (k % c.ik)) (q / c.ok) l (k / c.ik))
      (fun k => c.coreAt (k / c.ik) (k % c.ik * c.ok + o) r) none
  | _ =>
    let o := q / c.poutOld
    run 8 (c.dlOld * c.ik) (fun k => c.old b (c.ins p (k % c.ik)) (q % c.poutOld) (k / c.ik) r)
      (fun k => c.coreAt l (k % c.ik * c.ok + o) (k / c.ik)) none

/-- CHAIN (R306, R307): the source is read whole before the target is written, and +0 fills the rest. -/
def State.runChain (s : State) (n : Nat) (c : GCmd) (st : ChStep) : Res State := do
  let fmt := c.fmt
  let (g, s) ← s.elems c.who (fBT fmt) ((List.range st.coreElems).map (fun i => ((st.addr : Int), i)))
  let total := st.pin * st.ik
  let (x, s) ← (if st.step = 0 then
      s.elems c.who (fAT fmt) ((List.range (st.bt * total)).map (fun i =>
        ((kSrc c.k : Int) + ((i / total : Nat) : Int) * kSS c.k 1, i % total)))
    else .ok ([], s))
  let (sx, s) ← (if st.step = 0 ∧ fASM fmt = 2 then do
      let (v, s) ← s.cmdNat c.who (kAux c.k) 2
      pure (some v, s)
    else .ok (none, s))
  let src := lget (s.girder n).banks st.src []
  let t := fun e => if st.step = 0 then lget x e 0 else bankGet src (e / 256) (e % 256)
  let out := (List.range st.count).map (st.elem fmt t (fun i => lget g i 0) sx)
  let bank := mputs [] 0 (out.flatMap (fun p => bytesLE 4 p.1))
  let s := s.modGirder n (fun g => { g with banks := g.banks.set st.dst bank })
  pure (s.raiseAt c.core (out.foldl (fun f p => f ||| p.2) 0))

/-! ### ACCZ and ACCRD -/

/-- ACCZ (R285). -/
def State.runAccz (s : State) (n : Nat) (c : GCmd) : Res State :=
  let lo := 1024 * gRow c.k
  .ok (s.modGirder n (fun g => { g with
    banks := lmod g.banks (gBank c.k) (fun b => mclear b lo (lo + 1024 * kCount c.k 1)) }))

/-- floor of a finite value, from its sign, significand and exponent. -/
def floorVal (neg : Bool) (m : Nat) (e : Int) : Int :=
  let x : Int := if neg then -(m : Int) else m
  if 0 ≤ e then x * 2 ^ e.toNat else x / 2 ^ (-e).toNat

/-- Segment of the table for x (R286). -/
def segOf (x : FVal) : Nat :=
  match x with
  | .fin n m e =>
    let i := floorVal n m (e + 2) + 32
    if i < 0 then 0 else min 63 i.toNat
  | .inf neg => if neg then 0 else 63
  | .nan => 0

/-- Activation of one element (R286): the code and flags; tab gives the table's fp32 codes. -/
def activate (k : Nat) (tab : List Nat) (x : Nat) : Nat × Nat :=
  let v := NTy.fp32.value x
  match gAct k with
  | 0 => (x, 0)
  | 1 => if v.isNaN then (0x7FC00000, 0) else if bit x 31 then (0, 0) else (x, 0)
  | 2 =>
    let lo := gLo k * 65536
    let hi := gHi k * 65536
    if v.isNaN then (0x7FC00000, 0)
    else if v.lt (NTy.fp32.value lo) then (lo, fSAT)
    else if (NTy.fp32.value hi).lt v then (hi, fSAT)
    else (x, 0)
  | _ =>
    let i := segOf v
    let (y, f) := VArith.fma.val (NTy.fp32.value (lget tab (2 * i) 0)) v (NTy.fp32.value (lget tab (2 * i + 1) 0))
    let (c, g) := rne32 y
    (c, f ||| g)

/-- ceil of the distance of two fp32 codes in units of a scale, at most 0xFFFF (R288). -/
def deltaOf (y old : Nat) (sw : Option Nat) : Nat :=
  match NTy.fp32.value y, NTy.fp32.value old with
  | .nan, _ => 0xFFFF
  | _, .nan => 0xFFFF
  | .inf a, .inf b => if a = b then 0 else 0xFFFF
  | .inf _, .fin _ _ _ => 0xFFFF
  | .fin _ _ _, .inf _ => 0xFFFF
  | .fin an am ae, .fin bn bm be =>
    match addFin an am ae (!bn) bm be with
    | .fin _ 0 _ => 0
    | .fin _ m e =>
      let (sm, se) : Nat × Int := match sw with
        | none => (1, 0)
        | some sw => (64 + swM sw, (swE sw : Int) - 133)
      min 0xFFFF (cdiv (dyNum m (e - se)) (dyDen (e - se) * sm))
    | _ => 0xFFFF

/-- Output scale word of element (m, n) from the words read: none, one, or by block. -/
def outScale (c : GCmd) (words : List Nat) (m n : Nat) : Option Nat :=
  match fASM c.fmt with
  | 0 => none
  | 1 => some (lget words (m * cdiv (gN c.k) (fBlock c.fmt) + n / fBlock c.fmt) 0)
  | _ => some (lget words 0 0)

/-- Code and flags of one readout element (R286): bias gives the fp32 codes added. -/
def readout (c : GCmd) (bias tab words : List Nat) (m n x : Nat) : Nat × Nat :=
  let (x, f1) := if gBias c.k then accumulate x (NTy.fp32.value (lget bias n 0)) else (x, 0)
  let (x, f2) := activate c.k tab x
  if fRT c.fmt = 8 then (x, f1 ||| f2) else
  let sw := outScale c words m n
  let (y, f3) := quantize (NTy.fp32.value x) (elemTy (fRT c.fmt) sw) sw false
  (y, f1 ||| f2 ||| f3)

/-- The packed bytes of a row of codes (R31). -/
def packRow (ty : Nat) (l : List Nat) : List Byte :=
  let h := halfBytes ty
  if h = 1 then bytesLE (cdiv l.length 2) (ofLanes 4 l) else l.flatMap (bytesLE (h / 2))

/-- A line of a zero-mask tile: its mask and nonzero bytes (R259). -/
def zmLine (l : List Byte) : List Byte :=
  bytesLE 8 (ofLanes 1 (l.map (fun b => if b = 0#8 then 0 else 1))) ++ l.filter (· != 0#8)

/-- Bytes cut into runs of n, m runs. -/
def cutRuns {α : Type} (n : Nat) : Nat → List α → List (List α)
  | 0, _ => []
  | m + 1, l => l.take n :: cutRuns n m (l.drop n)

/-- The zero-mask tile of a run of bytes (R259). -/
def zmTile (l : List Byte) : List Byte :=
  let n := l.length / 64
  let ls := (cutRuns 64 n l).map zmLine
  bytesLE 8 n ++ ls.map (fun x => BitVec.ofNat 8 x.length) ++ List.replicate (cdiv n 8 * 8 - n) 0#8 ++ ls.flatten

/-- The D of one row (R288), reading each element's old code in the current backing. -/
def State.deltaRow (s : State) (c : GCmd) (words : List Nat) (m : Nat) : List (Nat × Nat) → Res (Nat × State)
  | [] => .ok (0, s)
  | (n, y) :: l => do
    let rt := fRT c.fmt
    let base : Int := (kDst c.k : Int) + (m : Int) * kDS c.k 1
    let (old, s) ← s.elem { c.who with current := true, ahead := [] } base rt n
    let sw := outScale c words m n
    let dq (x : Nat) : Nat := if rt = 8 then x else (dequantize x (elemTy rt sw) sw).1
    let d := deltaOf (dq y) (dq old) sw
    let (r, s) ← s.deltaRow c words m l
    pure (max d r, s)

/-- D over all rows. -/
def State.deltaRows (s : State) (c : GCmd) (words : List Nat) : List (Nat × List Nat) → Res (Nat × State)
  | [] => .ok (0, s)
  | (m, ys) :: l => do
    let (d, s) ← s.deltaRow c words m (ys.mapIdx (fun n y => (n, y)))
    let (r, s) ← s.deltaRows c words l
    pure (max d r, s)

/-- ACCRD (R286 to R288): the bytes written, D, and the state. -/
def State.runAccrd (s : State) (n : Nat) (c : GCmd) : Res (Nat × Nat × State) := do
  let k := c.k
  let m := kCount k 1
  let rt := fRT c.fmt
  let (_, s) ← (if gDelta k then do
      need (!gZmc k && ((s.ctx (s.strand c.core).task.ctx).bufAt (kDst k)).isSome) .commandField
      pure ((), s)
    else .ok ((), s))
  let (bias, s) ← (if gBias k then do
      let (b, s) ← s.cmdRds c.who (gBiasAddr k) (4 * gN k)
      pure (lanesOf 32 (gN k) (natLE b), s)
    else .ok ([], s))
  let (tab, s) ← (if gAct k = 3 then do
      let (b, s) ← s.cmdRds c.who (spadBase + gTable k) 512
      pure (lanesOf 32 128 (natLE b), s)
    else .ok ([], s))
  let (words, s) ← (match fASM c.fmt with
    | 0 => .ok ([], s)
    | 1 => s.scales c.who (kAux k) (m * cdiv (gN k) (fBlock c.fmt))
    | _ => s.scales c.who (kAux k) 1)
  let bank := lget (s.girder n).banks (gBank k) []
  let rows := (List.range m).map (fun i => (List.range (gN k)).map (fun j =>
    readout c bias tab words i j (bankGet bank (gRow k + i) j)))
  let (d, s) ← (if gDelta k then s.deltaRows c words (rows.mapIdx (fun i r => (i, r.map Prod.fst))) else .ok (0, s))
  let bytes := rows.map (fun r => packRow rt (r.map Prod.fst))
  let s ← (if gZmc k then s.cmdWrs c.who (kDst k) (zmTile bytes.flatten)
    else s.upTo (fun i s => s.cmdWrs c.who (wrapInt 64 ((kDst k : Int) + (i : Int) * kDS k 1)) (lget bytes i [])) m)
  let s := if gClear k then
      s.modGirder n (fun g => { g with banks := lmod g.banks (gBank k) (fun b =>
        (List.range m).foldl (fun b i => mclear b (1024 * (gRow k + i)) (1024 * (gRow k + i) + 4 * gN k)) b) })
    else s
  let s := s.raiseAt c.core (rows.foldl (fun f r => r.foldl (fun f p => f ||| p.2) f) 0)
  pure (if gZmc k then (zmTile bytes.flatten).length else (bytes.map List.length).foldl (· + ·) 0, d, s)

/-! ### One command, and windows -/

/-- A command's payload on Girder n, with the bytes it wrote and its D. -/
def State.runCmd (s : State) (n : Nat) (c : GCmd) (apart : Bool) (buf : Buf) : Res (Nat × Nat × State) :=
  match kKind c.k with
  | 1 | 2 => do pure (0, 0, ← s.runGemm n c buf apart)
  | 3 =>
    match c.ch with
    | some st => do pure (0, 0, ← s.runChain n c st)
    | none => .ok (0, 0, s)
  | 4 => s.runAccrd n c
  | 5 => do pure (0, 0, ← s.runAccz n c)
  | _ => do pure (0, 0, ← s.runWload n c)

/-- Banks a command writes (R289). -/
def GCmd.writes (c : GCmd) : List Nat :=
  match kKind c.k with
  | 1 | 2 | 5 => [gBank c.k]
  | 3 => (c.ch.map (fun st => [st.dst])).getD []
  | 4 => if gClear c.k then [gBank c.k] else []
  | _ => []

/-- Units of a Girder whose contents a command consumes: banks 0 to 3, buffers 4 and 5 (R290). apart says that another
Girder computes it, which reads no buffer here (R292). -/
def GCmd.consumes (c : GCmd) (apart : Bool) : List Nat :=
  match kKind c.k with
  | 1 | 2 => (if apart then [] else [4 + gSB c.k]) ++ (if gZero c.k then [] else [gBank c.k])
  | 3 => (c.ch.map (fun st => if st.step = 0 then [] else [st.src])).getD []
  | 4 => [gBank c.k]
  | _ => []

/-- Units that a command writes whole. -/
def GCmd.renews (c : GCmd) : List Nat :=
  match kKind c.k with
  | 3 => (c.ch.map (fun st => [st.dst])).getD []
  | 6 => [4 + gSB c.k]
  | _ => []

/-- Bit errors in units of a Girder that are written anew are gone (R290). -/
def State.dropUnits (s : State) (n : Nat) (us : List Nat) : State :=
  if s.upsets.isEmpty then s else
  { s with upsets := s.upsets.filter (fun u => match u.place with
    | .girder m x => !(m == n && us.contains x)
    | _ => true) }

/-- Bit errors of the units that a command consumes: corrected, or MEMORY_UE (R290, R387). -/
def State.unitScrub (s : State) (n : Nat) (c : GCmd) (apart : Bool) : Res State :=
  (s.upsets.filter (fun u => match u.place with
    | .girder m x => m == n && (c.consumes apart).contains x
    | _ => false)).foldlM (fun s u =>
      if u.uncorr then .error (.fault { code := .memoryUe, cause := 6, precise := false }) else .ok (s.corrected u)) s

/-- Elements of a bank that a command has computed, by row and column (R283, R284, R306). -/
def GCmd.cells (c : GCmd) : List (Nat × Nat) :=
  match kKind c.k, c.ch with
  | 1, _ | 2, _ => (List.range (gM c.k)).flatMap (fun m => (List.range (gN c.k)).map (fun n => (gRow c.k + m, n)))
  | 3, some st => (List.range st.count).map (fun e => (e / 256, e % 256))
  | _, _ => []

/-- An error in the multiply-accumulate array of Girder x, which nothing detects, has made what it computed any values
(R388). -/
def State.stray (s : State) (n x : Nat) (c : GCmd) : State :=
  if s.struck (.macs x) = false ∨ c.cells.isEmpty = true then s else
  (s.spent (.macs x)).modGirder n (fun g => { g with banks := g.banks.mapIdx (fun i b =>
    if c.writes.contains i then
      c.cells.foldl (fun b e => bankPut b e.1 e.2 (s.pick (8 + 256 * e.1 + e.2) % 2 ^ 32)) b
    else b) })

/-- A command with the bit errors that it meets in its Girder (R290, R387, R388). -/
def State.runUnits (s : State) (n : Nat) (c : GCmd) : Res (Nat × Nat × State) := do
  let s ← s.unitScrub n c c.migrated
  let (b, d, s) ← s.runCmd n c c.migrated ((s.girder n).buf (gSB c.k))
  pure (b, d, (s.dropUnits n c.renews).stray n n c)

/-- A command starts the bank it writes from zero (R289, R308). -/
def GCmd.starts (c : GCmd) : Bool :=
  match kKind c.k with
  | 1 | 2 => gZero c.k
  | 3 | 5 => true
  | _ => false

/-- Every bank that a window writes is started from zero in it before its first accumulation; clearing what ACCRD reads is
none (R289). -/
def zeroFirst (ws : List GCmd) : Bool :=
  (List.range 4).all (fun b =>
    !(ws.any (fun c => c.writes.contains b)) ||
    (match ws.find? (fun c => c.writes.contains b && kKind c.k != 4) with
      | none => false
      | some c => c.starts))

/-- A bank was written before a strand's window (R308). -/
def Girder.wroteBefore (g : Girder) (k win b : Nat) : Bool :=
  g.wrote.any (fun w => w.1 == b && !(w.2.1 == k && w.2.2 == win))

/-- The window of a core with these commands and these banks written by others is replayable (R289, R308). -/
def Girder.replayable (g : Girder) (k win : Nat) (ws : List GCmd) (foul : List Nat) : Bool :=
  let all := ws.flatMap GCmd.writes
  decide (ws.length ≤ 16) && zeroFirst ws && !all.any foul.contains
    && ws.all (fun c => match c.ch with
      | some st => !(st.step != 0 && all.contains st.src && g.wroteBefore k win st.src)
      | none => true)

/-- Commands of a strand's window that a Girder has run, in order. -/
def Girder.ranOf (g : Girder) (k win : Nat) : List Ran := g.ran.filter (fun r => r.cmd.core == k && r.cmd.win == win)

/-- Commands of that window still to run. -/
def Girder.queuedOf (g : Girder) (k win : Nat) : List GCmd :=
  g.queue.filterMap (fun e => match e with
    | .cmd c => if c.core = k ∧ c.win = win ∧ c.done = false then some c else none
    | .marker _ => none)

/-- The window of a command can run again, and has not done so (R289, R290). -/
def State.mayReplay (s : State) (n : Nat) (c : GCmd) : Bool :=
  let g := s.girder n
  let ran := g.ranOf c.core c.win
  let t := s.strand c.core
  let foul := ran.flatMap (·.foul) ++ (if t.winNo = c.win then t.foul else [])
  g.replayable c.core c.win (ran.map (·.cmd) ++ g.queuedOf c.core c.win) foul && !g.replayed.contains (c.core, c.win)

/-- A replay of a command's window begins: it is counted, and the banks that the window wrote are zeroed (R290). -/
def State.replayFrom (s : State) (n : Nat) (c : GCmd) : State :=
  let banks := ((s.girder n).ranOf c.core c.win).flatMap (fun r => r.cmd.writes)
  (s.dropUnits n banks).modGirder n (fun g => { g with
    replays := satAdd 0xFFFF g.replays 1
    replayed := (c.core, c.win) :: g.replayed
    banks := g.banks.mapIdx (fun i b => if banks.contains i then [] else b) })

/-- The commands of a command's window run again (R290). -/
def State.replay (s : State) (n : Nat) (c : GCmd) : Res State :=
  ((s.girder n).ranOf c.core c.win).foldlM (fun s r => do
    let (_, _, s) ← s.runUnits n r.cmd
    pure s) s

/-- Retries of a flit that have failed do not fail the next transfer of its line (R387). -/
def State.dropFlit (s : State) (pa : Nat) : State :=
  if s.upsets.isEmpty then s else
  { s with upsets := s.upsets.filter (fun u => match u.place with
    | .mesh p => lineKey p != lineKey pa
    | _ => true) }

/-- What a command does where it consumes an error that cannot be corrected, in an operand, a buffer or a bank: its window runs
again, and it with it, or the error is the fault where the window cannot run again or has done so (R290). A fault of the second
run keeps the count of the replay. -/
def State.orReplay {α : Type} (s : State) (n : Nat) (c : GCmd) (run : State → Res α) : Res α :=
  let again (f : FInfo) (r : Res α) : Res α :=
    if f.code = .memoryUe ∧ f.cause = 6 ∧ s.mayReplay n c = true then
      let s := (s.dropFlit f.addr).replayFrom n c
      s.keep (do
        let s ← s.replay n c
        run s)
    else r
  match run s with
  | .error (.fault f) => again f (.error (.fault f))
  | .error (.partly s' f) => again f (.error (.partly s' f))
  | r => r

/-- Banks written by a command become foul for the windows of the other strands (R289). -/
def State.foulOthers (s : State) (n : Nat) (c : GCmd) : State :=
  let s := s.modGirder n (fun g => { g with ran := g.ran.map (fun r =>
    if r.cmd.core = c.core then r else { r with foul := r.foul ++ c.writes }) })
  (List.range 4).foldl (fun s i =>
    if 4 * n + i = c.core then s
    else s.modStrand (4 * n + i) (fun t => { t with foul := t.foul ++ c.writes })) s

/-- Markers that have come to the front of the commands still to run leave, and with them their strand's earlier window
(R272, R289). -/
def Girder.passMarkers (g : Girder) : List GEntry → Girder
  | .cmd c :: l => if c.done then g.passMarkers l else g
  | .marker k :: l =>
    let g' := { g with
      queue := g.queue.erase (.marker k)
      ran := g.ran.filter (fun r => r.cmd.core != k), replayed := g.replayed.filter (fun p => p.1 != k) }
    g'.passMarkers l
  | [] => g

/-- The first command that has not run. -/
def Girder.firstCmd (g : Girder) : Option GCmd :=
  (g.queue.filterMap (fun e => match e with
    | .cmd c => if c.done then none else some c
    | .marker _ => none)).head?

/-- A command may run: its events are set, or it has started (R278). -/
def State.gReady (s : State) (c : GCmd) : Bool :=
  let m := kWaitmask c.k
  (s.strand c.core).live && (c.started || (s.strand c.core).regs.e &&& m == m)

/-- A command that has run is marked done, and enters its strand's run window. -/
def State.gDone (s : State) (n : Nat) (c : GCmd) (bytes d : Nat) (mig : Bool) : State :=
  let c' := { c with started := true, done := true, bytes := bytes, d := d, migrated := mig }
  let s := s.modGirder n (fun g => { g with
    queue := g.queue.map (fun e => if e == .cmd c then .cmd c' else e)
    wrote := c.writes.foldl (fun l b => if l.contains (b, c.core, c.win) then l else l ++ [(b, c.core, c.win)]) g.wrote
    ran := g.ran ++ [{ cmd := c' }] })
  s.foulOthers n c'

/-- A fault of a running command carries its Keystone fields (R318). -/
def GCmd.mark (c : GCmd) (r : Res State) : Res State :=
  let f (x : FInfo) : FInfo := match c.kslot with
    | some (a, b) => { x with rewritten := true, kslot := a, kpos := b }
    | none => x
  match r with
  | .error (.fault x) => .error (.fault (f x))
  | .error (.partly s x) => .error (.partly s (f x))
  | r => r

/-- The first command of a Girder that has not run does, if it is of the kind and may start (R278). -/
def girderRun (kind n : Nat) (s : State) : Host.Outcome State Fault Refusal :=
  if 32 ≤ n ∨ (s.girder n).fenced = true then .next s else
  let s := s.modGirder n (fun g => g.passMarkers g.queue)
  match (s.girder n).firstCmd with
  | none => .next s
  | some c =>
    if kKind c.k ≠ kind ∨ s.gReady c = false then .next s else
    let s := { s with cur := c.core }
    cmdOutcome s c.text 4 kind 2 (c.mark (do
      let (b, d, s) ← s.orReplay n c (fun s => s.runUnits n c)
      pure (s.gDone n c b d false)))

/-- GEMM (R283). -/
def execGemm (cluster : Nat) (s : State) : Host.Outcome State Fault Refusal := girderRun 1 cluster s
/-- CONV (R284). -/
def execConv (cluster : Nat) (s : State) : Host.Outcome State Fault Refusal := girderRun 2 cluster s
/-- CHAIN (R306). -/
def execChain (cluster : Nat) (s : State) : Host.Outcome State Fault Refusal := girderRun 3 cluster s
/-- ACCRD (R286). -/
def execAccrd (cluster : Nat) (s : State) : Host.Outcome State Fault Refusal := girderRun 4 cluster s
/-- ACCZ (R285). -/
def execAccz (cluster : Nat) (s : State) : Host.Outcome State Fault Refusal := girderRun 5 cluster s
/-- WLOAD (R282). -/
def execWload (cluster : Nat) (s : State) : Host.Outcome State Fault Refusal := girderRun 6 cluster s

/-! ### Migration -/

/-- A Girder that may take a migrating command (R292). -/
def State.migTarget (s : State) (home target : Nat) : Bool :=
  let g := s.girder target
  decide (target < 32) && target != home && stackOf target == stackOf home && !g.fenced && !(s.cluster target).fenced
    && g.queue.isEmpty && (List.range 4).any (fun i => (lget g.owner i none).isNone)
    && (List.range 2).any (fun i => (lget g.owner (4 + i) none).isNone)

/-- GIRDER_MIGRATION (R292): the i-th entry of the queue, once it has waited and no unstarted command is ahead of it,
is computed by another Girder from its operands and from the source of its buffer, as the bytes of both stand then. Where the
program breaks its duty to leave that source unchanged, the spec leaves the result undefined (R8, R292). DESIGN CHOICE
(assumption 134): it is what those bytes give. -/
def execGirderMigration (cluster i target : Nat) (s : State) : Host.Outcome State Fault Refusal :=
  match (s.girder cluster).queue[i]? with
  | some (.cmd c) =>
    let s0 := s
    let s := s.modGirder cluster (fun g => g.passMarkers g.queue)
    let g := s.girder cluster
    if cluster < 32 ∧ g.fenced = false ∧ c.mig = true ∧ (kKind c.k = 1 ∨ kKind c.k = 2) ∧ g.firstCmd = some c ∧ c.started = false
        ∧ g.migWait ≠ 0 ∧ c.since + g.migWait ≤ s.now ∧ s.gReady c = true ∧ s.migTarget cluster target = true then
      let s := { s with cur := c.core }
      cmdOutcome s c.text 4 (kKind c.k) 2 (c.mark (do
        match lget g.sbLoad (gSB c.k) none with
        | none => raiseF .commandField
        | some w =>
          let s ← s.orReplay cluster c (fun s => do
            let s ← s.unitScrub cluster c true
            let (b, s) ← s.loadBuf { w with ahead := [] }
            let s ← s.runGemm cluster c b true
            pure (s.stray cluster target c))
          pure (s.gDone cluster c 0 0 true)))
    else .next s0
  | _ => .next s

/-! ### Leases -/

/-- The next waiting strand of a cluster after the previous holder, in cyclic LOCAL order (R273). -/
def State.nextLease (s : State) (n : Nat) : Option Nat :=
  let prev := (s.girder n).prev
  ((List.range 4).map (fun i => 4 * n + (prev + 1 + i) % 4)).find? (fun k =>
    let t := s.strand k
    t.live && (t.lease == .waiting || (t.lease == .lapsed && t.leaseAsk)))

/-- LEASE_GRANT (R273): both limits are counted afresh; a lease that MLEASE took begins a window (R289). -/
def execLeaseGrant (cluster : Nat) (s : State) : Host.Outcome State Fault Refusal :=
  let g := s.girder cluster
  if 32 ≤ cluster ∨ g.fenced = true ∨ g.holder.isSome = true then .next s else
  match s.nextLease cluster with
  | none => .next s
  | some k =>
    let s := s.modGirder cluster (fun g => { g with
      holder := some k, lcnt := 0, grantAt := s.now, curLen := g.leaseLen, curCyc := g.leaseCyc })
    .next (s.modStrand k (fun t =>
      if t.lease = .waiting then { t with lease := .held, window := [], winNo := t.winNo + 1, foul := [] }
      else { t with lease := .held }))

/-- LEASE_LAPSE_CYCLES (R273). -/
def execLeaseLapseCycles (cluster : Nat) (s : State) : Host.Outcome State Fault Refusal :=
  let g := s.girder cluster
  match g.holder with
  | none => .next s
  | some k =>
    if cluster < 32 ∧ g.curCyc ≠ 0 ∧ g.grantAt + g.curCyc ≤ s.now then
      .next ((s.modGirder cluster (fun g => g.endLease k)).modStrand k (fun t => { t with lease := .lapsed }))
    else .next s

end Sys2Proof.Machine
end

