-- ==== Sys2Proof/Machine/CopyWords.lean ====
section
/-! DEFINITION. The C words: command registers, CISSUE with its checks, code tables, the drain and tile-list requests
(spec/12_copy_engine.md R246 to R266). -/

namespace Sys2Proof.Machine

/-- A command register of C. -/
def State.regC (s : State) (k : Nat) : Nat := (lget s.st.regs.kc k 0#1024).toNat

/-- CSET (R249). -/
def execCset (k f imm : Nat) (s : State) : Host.Outcome State Fault Refusal :=
  wordPre .c s (.ok (s.modRegs (fun r => { r with kc := lmod r.kc k (fun v => setHw v f 1 imm) })))

/-- CSETQ (R249). -/
def execCsetq (k f : Nat) (s : State) : Host.Outcome State Fault Refusal :=
  wordPre .c s (do
    let (x, s) ← s.pop 2
    pure (s.modRegs (fun r => { r with kc := lmod r.kc k (fun v => setHw v f 4 x.toNat) })))

/-! ### Fields of a copy command (Tables 12.2 and 12.4) -/

def cConv (k : Nat) : Nat := hw k 53
/-- Source and destination type of CONV; none where it names no conversion. -/
def cTypes (k : Nat) : Option (Nat × Nat) := if cConv k = 0x00FF then none else some (fld (cConv k) 0 4, fld (cConv k) 4 4)
/-- Rounding mode of a code (Table 2.4). -/
def rndOf : Nat → Rnd
  | 0 => .rne
  | 1 => .rtz
  | 2 => .rdn
  | _ => .rup
def cRowMask (k : Nat) : Nat := fld (kAux2 k) 0 4
def cColMask (k : Nat) : Nat := fld (kAux2 k) 4 8
def cPattern (k : Nat) : Nat := fld k (16 * 53) 64
def cEsz (k : Nat) : Nat := 2 ^ fld (hw k 57) 0 2
/-- Tile-list geometry: entries, bytes per pixel, width, height, tiles per row, halo. -/
def lE (k : Nat) : Nat := hw k 53
def lP (k : Nat) : Nat := hw k 54
def lW (k : Nat) : Nat := hw k 55
def lH (k : Nat) : Nat := hw k 56
def lTC (k : Nat) : Nat := hw k 57
def lHalo (k : Nat) : Nat := fld (hw k 58) 0 4
/-- Page size and table length of PGATH. -/
def pgSize (k : Nat) : Nat := 2 ^ (8 + fld (hw k 53) 0 4)
def pgLen (k : Nat) : Nat := fld k (16 * 54) 32

/-- Kinds with a nest at their destination. -/
def isNest (kind : Nat) : Bool := kind == 1 || kind == 2 || kind == 7 || kind == 8
/-- Kinds that may be multicast. -/
def isMcast (kind : Nat) : Bool := kind == 1 || kind == 7
/-- Counts of a nest, and strides of levels 1 to 4. -/
def nestCounts (k : Nat) : List Nat := [kCount k 1, kCount k 2, kCount k 3, kCount k 4]
def nestSS (k : Nat) : List Int := [kSS k 1, kSS k 2, kSS k 3, kSS k 4]
def nestDS (k : Nat) : List Int := [kDS k 1, kDS k 2, kDS k 3, kDS k 4]
/-- Runs of a nest, and its bytes. -/
def nestRuns (k : Nat) : Nat := (nestCounts k).foldl (· * ·) 1
def nestBytes (k : Nat) : Nat := kCount k 0 * nestRuns k

/-- Halfwords a kind uses beside those of Table 3.6. -/
def cUsed (kind : Nat) : List Nat :=
  commonHw ++ (match kind with
    | 1 => hwRange 6 18 ++ hwRange 21 28 ++ hwRange 31 38 ++ [43, 44, 53]
    | 2 => hwRange 6 18 ++ hwRange 31 38 ++ hwRange 39 42
    | 3 => hwRange 6 13 ++ [21, 22] ++ hwRange 31 34 ++ hwRange 39 42 ++ hwRange 53 58
    | 4 => hwRange 6 13 ++ hwRange 21 24 ++ [31, 32] ++ hwRange 39 42 ++ hwRange 53 57
    | 5 => hwRange 6 13 ++ [21, 22] ++ [31, 32] ++ hwRange 39 42 ++ hwRange 53 57
    | 6 => hwRange 6 18 ++ [31, 32] ++ hwRange 39 42 ++ [53, 54, 55]
    | 7 => hwRange 10 18 ++ hwRange 31 38 ++ [43, 44] ++ hwRange 53 57
    | _ => hwRange 6 18 ++ hwRange 21 28 ++ hwRange 31 38)

/-- Item 1 of R250 (R66). -/
def cissueEnc (k : Nat) : Bool :=
  let kind := kKind k
  upTo1 kind 8 && fld (kFlags k) 1 5 == 0 && (kind == 1 || kind == 2 || !kBit0 k) && fld k 24 8 == 0
    && (!isMcast kind || fld (kAux2 k) 12 20 == 0)

/-- Every count of a nest is 1 or more. -/
def nestOk (k : Nat) : Bool := kCount k 0 != 0 && (nestCounts k).all (· != 0)

/-- A queue type code that names a type. -/
def qTypeOk (c : Nat) : Bool := decide (c ≤ 5) || c == 8 || c == 9 || c == 10

/-- CONV and ZX of a COPY (R253, R259). -/
def convOkC (k : Nat) : Bool :=
  match cTypes k with
  | none => !kBit0 k || kSrc k % 8 == 0
  | some (a, b) =>
    let ws := qWidth a / 8
    let wd := qWidth b / 8
    !kBit0 k && qTypeOk a && qTypeOk b && fld (cConv k) 10 6 == 0 && kCount k 0 % ws == 0
      && (nestSS k).all (fun d => d % (ws : Int) == 0) && (nestDS k).all (fun d => d % (wd : Int) == 0)
      && kSrc k % ws == 0 && kDst k % wd == 0

/-- A tile list's place: a multiple of 4 in the own window (R260). -/
def ownWindow (va : Nat) : Bool :=
  match window va with
  | .spad none _ => true
  | _ => false

/-- Limits of Table 12.4. -/
def listOk (k : Nat) : Bool :=
  lE k != 0 && upTo1 (lP k) 4096 && lW k != 0 && lH k != 0 && decide (cdiv (lW k) 16 ≤ lTC k) && decide (lTC k ≤ 4096)
    && kAux k % 4 == 0 && ownWindow (kAux k)
    && (kKind k != 3 || (decide (lHalo k ≤ 8) && fld (hw k 58) 4 12 == 0))

/-- Limits of PGATH (R263). -/
def pgathOk (k : Nat) : Bool :=
  upTo1 (kCount k 0) 4096 && (nestCounts k).all (· == 1) && decide (fld (hw k 53) 0 4 ≤ 8) && fld (hw k 53) 4 12 == 0
    && pgLen k != 0 && kSrc k % 4 == 0 && ownWindow (kSrc k) && kAux k % 8 == 0 && kDst k % 64 == 0
    && kDS k 1 % 64 == 0

/-- Limits of FILL (R255). -/
def fillOk (k : Nat) : Bool :=
  nestOk k && fld (hw k 57) 2 14 == 0 && kCount k 0 % cEsz k == 0 && kDst k % cEsz k == 0
    && (nestDS k).all (fun d => d % (cEsz k : Int) == 0)

/-- Bytes of one run at the destination: conversion changes the width of its elements (R253). -/
def dstRun (k : Nat) : Nat :=
  if kKind k = 1 then
    match cTypes k with
    | none => kCount k 0
    | some (a, b) => kCount k 0 / (qWidth a / 8) * (qWidth b / 8)
  else kCount k 0

/-- Span of a nest's destination. -/
def dstSpan (k : Nat) : Int × Int :=
  if isNest (kKind k) then spanOf (kDst k) (dstRun k) ((nestCounts k).zip (nestDS k))
  else if kKind k = 6 then spanOf (kDst k) (pgSize k) [(kCount k 0, kDS k 1)]
  else if kKind k = 3 then spanOf (kDst k) ((16 + 2 * lHalo k) * lP k) [(16 + 2 * lHalo k, kDS k 2), (lE k, kDS k 1)]
  else spanOf (kDst k) (lW k * lP k) [(lH k, kDS k 1)]

/-- The weight-store region of an address in the window. -/
def regionOf (x : Int) : Nat := (wrapInt 64 x - wstBase) / 0x200000

/-- Address of run i of a nest's destination (R252). -/
def dstAt (k i : Nat) : Nat := wrapInt 64 ((kDst k : Int) + nestAt (nestCounts k) (nestDS k) i)

/-- The regions that a WSTORE writes, each once (R228). -/
def regionsOf (k : Nat) : List Nat :=
  ((List.range (nestRuns k)).flatMap (fun i =>
    let a := regionOf (dstAt k i : Nat)
    (List.range (regionOf ((dstAt k i + kCount k 0 - 1 : Nat) : Int) + 1 - a)).map (· + a))).foldl
    (fun l m => if l.contains m then l else l ++ [m]) []

/-- No placed task on a die declares a region (R228). -/
def State.undeclared (s : State) (die m : Nat) : Bool :=
  s.allGangs.all (fun g => !(bit g.task.wst m && g.members.any (fun x => !x.ended && dieOf (clusterOf x.core) == die)))

/-- WSTORE is accepted: both ends lie in the window, and no placed task declares a region that it writes (R228, R254). -/
def State.wstoreOk (s : State) (k : Nat) : Bool :=
  let r := dstSpan k
  nestOk k && bit s.st.task.flags 0
    && inWst r.1 && inWst r.2 && (regionsOf k).all (s.undeclared (dieOf (clusterOf s.cur)))

/-- Masks of a multicast: both or neither (R22); its destination is a peer-window address (R251). -/
def masksOk (k : Nat) : Bool :=
  (cRowMask k == 0) == (cColMask k == 0) && (cRowMask k == 0 || (match window (kDst k) with
    | .spad (some _) _ => true
    | _ => false))

/-- Item 2 of R250. -/
def State.cissueFields (s : State) (k : Nat) : Bool :=
  let kind := kKind k
  onlyHw k (cUsed kind) && s.completionOk k && (!isMcast kind || masksOk k)
    && (match kind with
      | 1 => nestOk k && convOkC k
      | 2 => nestOk k && kSrc k % 8 == 0 && (kBit0 k || kAux k == 0)
      | 3 | 4 | 5 => listOk k
      | 6 => pgathOk k
      | 7 => fillOk k
      | _ => s.wstoreOk k)

/-- Clusters a multicast names (R21). -/
def mcastClusters (k : Nat) : List Nat :=
  (List.range 32).filter (fun n => bit (cColMask k) (colOf n) && bit (cRowMask k) (rowOf n))

/-- A command is multicast. -/
def isMulti (k : Nat) : Bool := isMcast (kKind k) && cRowMask k != 0

/-- Every named core runs a member of the gang, with both ends below its allotment (R251). -/
def State.mcastOk (s : State) (k : Nat) : Bool :=
  let r := dstSpan k
  match window (wrapInt 64 r.1), window (wrapInt 64 r.2) with
  | .spad (some a) lo, .spad (some b) hi =>
    a == b && (mcastClusters k).all (fun n =>
      let c := s.core (4 * n + a)
      !c.inPar && c.ord.live && c.ord.gang == s.st.gang && decide (lo < c.ord.allot) && decide (hi < c.ord.allot))
  | _, _ => false

/-- Source ranges of a command (R252, R259, R260, R263). -/
def srcSpans (k : Nat) : List (Int × Int) :=
  match kKind k with
  | 1 => if kBit0 k then [spanOf (kSrc k) 8 []] else [spanOf (kSrc k) (kCount k 0) ((nestCounts k).zip (nestSS k))]
  | 2 => [spanOf (kSrc k) 8 []]
  | 3 => [spanOf (kAux k) (4 * lE k) [], spanOf (kSrc k) (lW k * lP k) [(lH k, kSS k 1)]]
  | 4 => [spanOf (kAux k) (4 * lE k) [], spanOf (kSrc k) (16 * lP k) [(16, kSS k 2), (lE k, kSS k 1)]]
  | 5 => [spanOf (kAux k) (4 * lE k) [], spanOf (kSrc k) (lW k * lP k) [(lH k, kSS k 1)]]
  | 6 => [spanOf (kSrc k) (4 * kCount k 0) []]
  | 7 => []
  | _ => [spanOf (kSrc k) (kCount k 0) ((nestCounts k).zip (nestSS k))]

/-- The source ranges that CISSUE checks, each with its alignment: nests and affine ranges (R252, R256). A zero-mask
tile and a stream are read, and checked, during the run. -/
def issueSpans (k : Nat) : List ((Int × Int) × Nat) :=
  if kKind k = 2 then (if kBit0 k then [(spanOf (kAux k) 128 [], 8)] else [])
  else if kKind k = 1 ∧ kBit0 k = true then []
  else (srcSpans k).map (fun r => (r, 1))

/-- The longest ranges that a command reads, the table of a PGATH and of a COPYZ included (R217, R258, R259, R263). -/
def readSpans (k : Nat) : List (Int × Int) :=
  if kKind k = 1 ∧ kBit0 k = true then [spanOf (kSrc k) (zmMax (nestBytes k / 64)) []]
  else if kKind k = 2 then
    spanOf (kSrc k) (8 + cdiv (15 * nestBytes k) 8) [] :: (if kBit0 k then [spanOf (kAux k) 128 []] else [])
  else srcSpans k ++ (if kKind k = 6 then [spanOf (kAux k) (8 * pgLen k) []] else [])

/-- Addresses of the pages that a PGATH gathers, as its tables stand. -/
def State.pagesOf (s : State) (k core : Nat) : List Nat :=
  if kKind k ≠ 6 then [] else
  (List.range (kCount k 0)).filterMap (fun j => match (do
      let (i, _) ← s.cmdNat { core := core, cRd := true } (kSrc k + 4 * j) 4
      let (p, _) ← s.cmdNat { core := core, cRd := true } (wrapInt 64 (kAux k + 8 * i : Nat)) 8
      pure (fld p 0 48) : Res Nat) with
    | .ok p => some p
    | .error _ => none)

/-- The address checks of a list of sources. -/
def State.srcChecks (s : State) : List ((Int × Int) × Nat) → Res Unit
  | [] => .ok ()
  | r :: l => do
    s.rangeCheck r.1 r.2 .rd false false
    s.srcChecks l

/-- A copy queue of a core. -/
def Core.cq (c : Core) (q : Nat) : List CCmd := if q = 0 then c.ldq else c.stq
/-- That queue replaced. -/
def Core.setCq (c : Core) (q : Nat) (l : List CCmd) : Core := if q = 0 then { c with ldq := l } else { c with stq := l }

/-- CISSUE (R250). -/
def execCissue (kn q : Nat) (s : State) : Host.Outcome State Fault Refusal :=
  wordPre .c s (do
    let k := s.regC kn
    need (cissueEnc k) .illegalEncoding
    need (s.cissueFields k) .commandField
    s.srcChecks (issueSpans k)
    if isMulti k then needAt (s.mcastOk k) .scratchBounds (kDst k)
    else s.rangeCheck (dstSpan k) 1 .wr false (kKind k == 8)
    wait (decide (((s.core s.cur).cq q).length < 16))
    let s ← (if kTv k then s.tokIssue .c (kTok k) else .ok s)
    let c : CCmd := { k := k, text := s.st.ec.pc,
                      slots := (readSpans k).flatMap s.slotsIn ++ s.slotsIn (dstSpan k)
                        ++ (s.pagesOf k s.cur).flatMap (fun a => s.slotsIn (spanOf a (pgSize k) [])) }
    let s := s.modCore s.cur (fun x => x.setCq q (x.cq q ++ [c]))
    if kKind k = 8 then
      let ms := regionsOf k
      let s := s.modDie (dieOf (clusterOf s.cur)) (fun d =>
        { d with ready := ms.foldl (fun r m => setFld r m 1 0) d.ready })
      pure (s.modSt (fun t => { t with wstWritten := t.wstWritten ++ ms.filter (fun m => !t.wstWritten.contains m) }))
    else pure s)

/-! ### Code tables (R256 to R258) -/

/-- Code length of symbol i in a length table of 128 bytes. -/
def codeLen (tab : List Byte) (i : Nat) : Nat := fld (lget tab (i / 2) 0#8).toNat (4 * (i % 2)) 4

/-- The lengths of a table, if it is valid (R256). -/
def codeTable (tab : List Byte) : Option (List Nat) :=
  let ls := (List.range 256).map (codeLen tab)
  let sum := (ls.map (fun n => if n = 0 then 0 else 2 ^ (15 - n))).foldl (· + ·) 0
  if ls.any (· != 0) && decide (sum ≤ 2 ^ 15) then some ls else none

/-- First code word of each length, from length 1 on (R256). -/
def firstCodes (ls : List Nat) : Nat → Nat
  | 0 => 0
  | n + 1 => (firstCodes ls n + (if n = 0 then 0 else (ls.filter (· == n)).length)) * 2

/-- Code word of a symbol: the first of its length, and one more for each earlier symbol of that length. -/
def codeWord (ls : List Nat) (i : Nat) : Nat :=
  let n := lget ls i 0
  firstCodes ls n + ((ls.take i).filter (· == n)).length

/-- The symbol a bit pattern of n bits stands for. -/
def codeSym (ls : List Nat) (n w : Nat) : Option Nat :=
  (List.range 256).find? (fun i => lget ls i 0 == n && codeWord ls i == w)

/-- A running or queued COPYZ names a table (R257). DESIGN CHOICE (assumption 150): one whose header cannot be read now counts as
naming every table. -/
def State.codeBusy (s : State) (id : Nat) : Bool :=
  let c := s.core s.cur
  (c.ldq ++ c.stq).any (fun x => kKind x.k == 2 && (match s.cmdNat { core := s.cur } (kSrc x.k) 8 with
    | .ok (h, _) => fld h 32 4 == id
    | .error _ => true))

/-- CCODE (R257). -/
def execCcode (i : Nat) (s : State) : Host.Outcome State Fault Refusal :=
  wordPre .c s (do
    let (x, s) ← s.pop 2
    let va := x.toNat
    needAt (va % 8 == 0) .alignment va
    s.rangeCheck (spanOf va 128 []) 8 .rd false false
    let (bs, s1) ← s.cmdRds { core := s.cur } va 128
    wait (!s.codeBusy i)
    match codeTable bs with
    | none => raiseF .illegalOperand
    | some ls => pure (s1.modSt (fun t => { t with codeTab := t.codeTab.set i (some ls) })))

/-! ### CQDRAIN and CMLIST -/

/-- CQDRAIN fixes its set: every unstarted command of both queues is cancelled (R151). -/
def State.cancelCopy (s : State) : State :=
  let c := s.core s.cur
  let cs := (c.ldq ++ c.stq).filter (fun x => !x.started)
  let s := s.modCore s.cur (fun c => { c with ldq := c.ldq.filter (·.started), stq := c.stq.filter (·.started) })
  let s := cs.foldl (fun s c => s.cancelCmd .c c.k) s
  (s.modSt (fun t => { t with cancelled := true })).dropRetired s.cur

/-- CQDRAIN (R150, R151). Its progress is kept apart from MQDRAIN's in the fourth drain counter: 1 once the set is
fixed. -/
def execCqdrain (s : State) : Host.Outcome State Fault Refusal :=
  wordPre .c s (do
    let s := if s.drainAt .c = 0 then
        ((s.cancelCopy).modSt (fun t => { t with cancelled := s.st.cancelled })).setDrain .c 1
      else s
    let (done, s) ← s.drainQueue 2
    if done then pure (s.setDrain .c 0) else .error (.hold s))

/-- CMLIST (R266). -/
def execCmlist (l w : Nat) (s : State) : Host.Outcome State Fault Refusal :=
  wordPre .c s (do
    let t := s.st
    need (t.task.src == 2 || t.task.src == 3) .illegalOperand
    let (x, s) ← s.pop 2
    let va := fld x.toNat 0 48
    let k := fld x.toNat 48 16
    need (k != 0 && decide (l < t.task.layers)) .illegalOperand
    needAt (va % 8 == 0) .alignment va
    match window va with
    | .spad none off => needAt (decide (off + 8 + 4 * k ≤ t.allot)) .scratchBounds va
    | _ => .error (.fault { code := .scratchBounds, addr := va })
    wait (decide (t.cml.length < 4))
    let s ← s.tokIssue .c w
    pure (s.modSt (fun t => { t with cml := t.cml ++ [{ layer := l, tok := w, dst := x.toNat, frame := t.task.frame }] })))

end Sys2Proof.Machine
end

