-- ==== Sys2Proof/Machine/Copy.lean ====
section
/-! DEFINITION. The copy commands as they run, and the completion of commands (spec/12_copy_engine.md R247 to R264). A
command's payload moves in one step, or its source is read in one step and its writes are made one by one; source bytes may be
read ahead of both (assumption 9). -/

namespace Sys2Proof.Machine

/-- The rights of a copy command: it reaches compressed pages, which it writes raw; MOTION reads the current backing; WSTORE
writes the weight store (R254, R259, R262, R412). -/
def CCmd.reader (c : CCmd) (core : Nat) : Who :=
  { core := core, slots := c.slots, cRd := true, current := kKind c.k == 5, ahead := c.ahead }
def CCmd.writer (c : CCmd) (core : Nat) : Who :=
  { core := core, slots := c.slots, cWr := true, wstOk := kKind c.k == 8 }

/-! ### Writes -/

/-- The clusters that a command writes in: each one that a multicast names, or none but the destination's own (R21, R251). -/
def placesOf (k : Nat) : List (Option Nat) := if isMulti k then (mcastClusters k).map some else [none]

/-- Where a multicast's n bytes go in a cluster: the scratchpad of the core with that LOCAL, which runs a member of the gang
(R251). -/
def State.mcastTarget (s : State) (core cl va n : Nat) : Res Target :=
  match window va with
  | .spad (some a) off =>
    let x := s.core (4 * cl + a)
    if !x.inPar && x.ord.live && x.ord.gang == (s.strand core).gang && decide (off + n ≤ x.ord.allot) then
      .ok (.spad (4 * cl + a) off)
    else .error (.fault { code := .scratchBounds, addr := va })
  | _ => .error (.fault { code := .scratchBounds, addr := va })

/-- The bit errors of the words that a run writes in one of a command's places (R189). -/
def State.openAt (s : State) (c : CCmd) (core va n : Nat) (p : Option Nat) : Res State :=
  match p with
  | none => s.cmdOpen (c.writer core) va n
  | some cl => do s.scrubW (← s.mcastTarget core cl va n) n

/-- Bytes of a run written in one of a command's places; a strand that waits on a word has read what the runs before it left
(R195). -/
def State.putAt (s : State) (c : CCmd) (core va : Nat) (bs : List Byte) (p : Option Nat) : Res State :=
  match p with
  | none => s.watch.cmdPuts (c.writer core) va bs
  | some cl => do pure (s.watch.writeTarget core (← s.mcastTarget core cl va bs.length) 0 bs)

/-- A write that a command still had to make. -/
def State.putWrite (s : State) (c : CCmd) (core : Nat) (w : CWrite) : Res State := do
  let s ← s.openAt c core w.va w.bytes.length w.clu
  s.putAt c core w.va w.bytes w.clu

/-- All the writes that a command still had to make. -/
def State.putWrites (s : State) (c : CCmd) (core : Nat) : List CWrite → Res State
  | [] => .ok s
  | w :: l => do
    let s ← s.putWrite c core w
    s.keep (s.putWrites c core l)

/-! ### A payload under way -/

/-- A payload under way: the device as its reads leave it, the device with what it has written so far, its writes, newest
first, and the source bytes read so far. -/
structure Move where
  s : State
  t : State
  out : List CWrite := []
  tag : Nat := 0

/-- A payload that starts. -/
def Move.start (s : State) : Move := { s := s, t := s }

/-- A fault after a part of a payload keeps what that part has written (R267). -/
def Move.keep {α : Type} (m : Move) (r : Res α) : Res α := m.t.keep r

/-- A source byte: where the command's own destination overlaps it, its old value or its new one (R252). -/
def Move.read (m : Move) (c : CCmd) (core va : Nat) : Res (Byte × Move) := do
  let (old, s) ← m.s.cmdRd (c.reader core) va
  let (new, t) := match m.t.cmdRd (c.reader core) va with
    | .ok r => r
    | .error _ => (old, m.t)
  pure (if old ≠ new ∧ Config.freeOld m.s.free m.tag = true then old else new, { m with s := s, t := t, tag := m.tag + 1 })

/-- n source bytes from an address up. -/
def Move.reads (m : Move) (c : CCmd) (core va : Nat) : Nat → Res (List Byte × Move)
  | 0 => .ok ([], m)
  | n + 1 => do
    let (b, m) ← m.read c core va
    let (l, m) ← m.reads c core (va + 1) n
    pure (b :: l, m)

/-- An n-byte number of the source. -/
def Move.nat (m : Move) (c : CCmd) (core va n : Nat) : Res (Nat × Move) := do
  let (l, m) ← m.reads c core va n
  pure (natLE l, m)

/-- n units of a run written from an address up, each as f gives it from the decoder's state x. -/
def Move.units {σ : Type} (c : CCmd) (core : Nat) (f : σ → Move → Res (List Byte × σ × Move)) :
    Nat → Nat → σ → Move → Res (List Byte × σ × Move)
  | 0, _, x, m => .ok ([], x, m)
  | n + 1, va, x, m => do
    let (bs, x, m) ← f x m
    let t ← (placesOf c.k).foldlM (fun s p => s.putAt c core va bs p) m.t
    let m := { m with t := t }
    let (l, x, m) ← m.keep (Move.units c core f n (va + bs.length) x m)
    pure (bs ++ l, x, m)

/-- A run of len bytes in n units: first the bit errors of the words it writes (R189). -/
def Move.run {σ : Type} (c : CCmd) (core va len n : Nat) (f : σ → Move → Res (List Byte × σ × Move)) (x : σ) (m : Move) :
    Res (σ × Move) := do
  let t ← (placesOf c.k).foldlM (fun s p => s.openAt c core va len p) m.t
  let (bs, x, m) ← Move.units c core f n va x { m with t := t }
  pure (x, { m with out := (placesOf c.k).map (fun p => ⟨p, va, bs⟩) ++ m.out })

/-- A step of a payload repeated for i from 0 to n - 1. -/
def Move.upTo (f : Nat → Move → Res Move) : Nat → Move → Res Move
  | 0, m => .ok m
  | n + 1, m => do
    let m ← Move.upTo f n m
    m.keep (f n m)

/-- n runs of a nest's destination from run i on, each of COUNT0 bytes that f gives one by one. -/
def Move.stream {σ : Type} (c : CCmd) (core : Nat) (f : σ → Move → Res (List Byte × σ × Move)) :
    Nat → Nat → σ → Move → Res Move
  | 0, _, _, m => .ok m
  | n + 1, i, x, m => do
    let (x, m) ← Move.run c core (dstAt c.k i) (kCount c.k 0) (kCount c.k 0) f x m
    m.keep (Move.stream c core f n (i + 1) x m)

/-- n source bytes from an address up copied to a destination byte by byte. -/
def Move.copy (c : CCmd) (core src dst n : Nat) (m : Move) : Res Move := do
  let (_, m) ← Move.run c core dst n n (fun a m => do
    let (b, m) ← m.read c core a
    pure ([b], a + 1, m)) src m
  pure m

/-! ### Nests (R252, R253) -/

/-- Address of run i of a nest (R252). -/
def srcAt (k i : Nat) : Nat := wrapInt 64 ((kSrc k : Int) + nestAt (nestCounts k) (nestSS k) i)

/-- An element's bytes converted by CONV (R253). -/
def convElem (k : Nat) (l : List Byte) : List Byte :=
  match cTypes k with
  | none => l
  | some (a, b) =>
    bytesLE (qWidth b / 8) (convert (natLE l) (NTy.ofCode 0 a) (NTy.ofCode 0 b) (rndOf (fld (cConv k) 8 2)) false).1

/-- A COPY converts its elements (R253). -/
def usesConv (k : Nat) : Bool := kKind k == 1 && (cTypes k).isSome

/-- Bytes of a source element of CONV. -/
def convSize (k : Nat) : Nat := ((cTypes k).map (fun p => qWidth p.1 / 8)).getD 1

/-- Run i of a nest converted element by element. -/
def Move.convRun (c : CCmd) (core i : Nat) (m : Move) : Res Move := do
  let w := convSize c.k
  let (_, m) ← Move.run c core (dstAt c.k i) (dstRun c.k) (kCount c.k 0 / w) (fun j m => do
    let (l, m) ← m.reads c core (srcAt c.k i + j * w) w
    pure (m.s.wrongBytes (.copies core) (1024 * i + 8 * j) (convElem c.k l), j + 1, m)) 0 m
  pure m

/-- A nest moved run by run in nest order. -/
def Move.nest (c : CCmd) (core : Nat) (m : Move) : Res Move :=
  Move.upTo (fun i m =>
    if usesConv c.k then Move.convRun c core i m
    else Move.copy c core (srcAt c.k i) (dstAt c.k i) (kCount c.k 0) m) (nestRuns c.k) m

/-- A pattern written to a nest (R255). -/
def Move.fill (c : CCmd) (core : Nat) (m : Move) : Res Move :=
  Move.upTo (fun i m => do
    let one := bytesLE (cEsz c.k) (cPattern c.k)
    let (_, m) ← Move.run c core (dstAt c.k i) (kCount c.k 0) (kCount c.k 0 / cEsz c.k) (fun _ m => .ok (one, (), m)) () m
    pure m) (nestRuns c.k) m

/-! ### Zero-mask tiles (R259) -/

/-- The expansion of a zero-mask tile: output byte pos comes next, of a line with mask and its nonzero bytes from at_ on;
the next line stands at line, and its length byte, with that byte's address, is the first of lens. -/
structure ZmSt where
  pos : Nat := 0
  mask : Nat := 0
  at_ : Nat := 0
  line : Nat
  lens : List (Nat × Byte)

/-- The mask of the next line; its length byte must match (R259). -/
def ZmSt.next (x : ZmSt) (c : CCmd) (core : Nat) (m : Move) : Res (ZmSt × Move) := do
  let (mask, m) ← m.nat c core x.line 8
  let (a, len) := x.lens.headD (x.line, 0#8)
  needAt (len.toNat == 8 + popc 64 mask) .commandField a
  pure ({ x with mask := mask, at_ := x.line + 8, line := x.line + len.toNat, lens := x.lens.tail }, m)

/-- The next byte of the expanded tile. -/
def ZmSt.byte (c : CCmd) (core : Nat) (x : ZmSt) (m : Move) : Res (List Byte × ZmSt × Move) := do
  let (x, m) ← (if x.pos % 64 = 0 then x.next c core m else .ok (x, m))
  let (b, x, m) ← (if bit x.mask (x.pos % 64) then do
      let (b, m) ← m.read c core x.at_
      pure (b, { x with at_ := x.at_ + 1 }, m)
    else .ok (0#8, x, m))
  pure (m.s.wrongBytes (.copies core) x.pos [b], { x with pos := x.pos + 1 }, m)

/-- A zero-mask tile expanded; its line count must match the nest (R259). DESIGN CHOICE (assumption 149): a tile of more than
1,024 lines, for which the rule names no fault, is expanded like any other. -/
def Move.zx (c : CCmd) (core : Nat) (m : Move) : Res Move := do
  let (h, m) ← m.nat c core (kSrc c.k) 8
  let n := fld h 0 16
  needAt (fld h 16 48 == 0 && n * 64 == nestBytes c.k) .commandField (kSrc c.k)
  let (lens, m) ← m.reads c core (kSrc c.k + 8) n
  Move.stream c core (ZmSt.byte c core) (nestRuns c.k) 0
    { line := kSrc c.k + 8 + cdiv n 8 * 8, lens := lens.mapIdx (fun i b => (kSrc c.k + 8 + i, b)) } m

/-! ### Entropy-coded streams (R258) -/

/-- The decoding of a stream: its next bit, the byte that holds the bit where it is not a byte's first, and the symbols so
far. -/
structure CzSt where
  pos : Nat := 0
  byte : Byte := 0#8
  n : Nat := 0

/-- The next bit of the stream at base. -/
def CzSt.bit (base : Nat) (c : CCmd) (core : Nat) (x : CzSt) (m : Move) : Res (Nat × CzSt × Move) := do
  let (b, m) ← (if x.pos % 8 = 0 then m.read c core (base + x.pos / 8) else .ok (x.byte, m))
  pure (fld b.toNat (x.pos % 8) 1, { x with pos := x.pos + 1, byte := b }, m)

/-- One symbol decoded bit by bit, of at most k bits more after the len bits of code. -/
def CzSt.symbol (base : Nat) (ls : List Nat) (c : CCmd) (core : Nat) :
    Nat → Nat → Nat → CzSt → Move → Res (Nat × CzSt × Move)
  | 0, _, _, x, _ => .error (.fault { code := .commandField, addr := base + (x.pos - 1) / 8 })
  | k + 1, len, code, x, m => do
    let (b, x, m) ← x.bit base c core m
    let code := 2 * code + b
    match codeSym ls (len + 1) code with
    | some v => pure (v, x, m)
    | none => CzSt.symbol base ls c core k (len + 1) code x m

/-- The next byte of the expanded stream. -/
def CzSt.next (base : Nat) (ls : List Nat) (c : CCmd) (core : Nat) (x : CzSt) (m : Move) : Res (List Byte × CzSt × Move) := do
  let (v, x, m) ← CzSt.symbol base ls c core 15 0 0 x m
  pure (m.s.wrongBytes (.copies core) x.n [BitVec.ofNat 8 v], { x with n := x.n + 1 }, m)

/-- COPYZ's table: the slot the header names, loaded from AUX first under TABA (R258). -/
def State.codeTabOf (s : State) (c : CCmd) (core id : Nat) : Res (List Nat × State) := do
  let s ← (if kBit0 c.k then do
      let (bs, s) ← s.cmdRds (c.reader core) (kAux c.k) 128
      match codeTable bs with
      | none => .error (.fault { code := .commandField, addr := kAux c.k })
      | some ls => pure (s.modStrand core (fun t => { t with codeTab := t.codeTab.set id (some ls) }))
    else .ok s)
  match lget (s.strand core).codeTab id none with
  | none => .error (.fault { code := .commandField, addr := kSrc c.k })
  | some ls => pure (ls, s)

/-- COPYZ (R258): the checks when it starts, and the stream. -/
def State.copyz (s : State) (c : CCmd) (core : Nat) : Res Move := do
  let (h, s) ← s.cmdNat (c.reader core) (kSrc c.k) 8
  needAt (fld h 36 28 == 0 && fld h 0 32 == nestBytes c.k) .commandField (kSrc c.k)
  let (ls, s) ← s.codeTabOf c core (fld h 32 4)
  Move.stream c core (CzSt.next (kSrc c.k + 8) ls c core) (nestRuns c.k) 0 {} (Move.start s)

/-! ### Tile lists (R260, R261) -/

/-- Entry e of a list. -/
def entTile (x : Nat) : Nat := fld x 0 16
def entAct (x : Nat) : Nat := fld x 16 2
def entDX (x : Nat) : Int := sextInt 7 (fld x 18 7)
def entDY (x : Nat) : Int := sextInt 7 (fld x 25 7)

/-- A pixel lies inside the map. -/
def inMap (k : Nat) (x y : Int) : Bool :=
  decide (0 ≤ x) && decide (0 ≤ y) && decide (x < (lW k : Int)) && decide (y < (lH k : Int))

/-- Map pixel address (R261). -/
def pixelAt (base : Nat) (pitch : Int) (k : Nat) (x y : Int) : Nat := wrapInt 64 ((base : Int) + y * pitch + x * (lP k : Int))

/-- Block pixel address. -/
def blockAt (base : Nat) (de dv : Int) (k e u v : Nat) : Nat :=
  wrapInt 64 ((base : Int) + (e : Int) * de + (v : Int) * dv + (u * lP k : Nat))

/-- An entry that a list command may meet (R261). -/
def entryOk (k x : Nat) : Bool :=
  let tx : Int := (entTile x % lTC k : Nat)
  let ty : Int := (entTile x / lTC k : Nat)
  decide (entAct x ≤ 1) && decide (entTile x < lTC k * cdiv (lH k) 16)
    && (kKind k != 5 || entAct x != 1 ||
      (inMap k (16 * tx + entDX x) (16 * ty + entDY x) && inMap k (16 * tx + entDX x + 15) (16 * ty + entDY x + 15)))

/-- One pixel of an entry moved: (u, v) of its block or tile. -/
def Move.pixel (c : CCmd) (core e x u v : Nat) (m : Move) : Res Move :=
  let k := c.k
  let tx : Int := (entTile x % lTC k : Nat)
  let ty : Int := (entTile x / lTC k : Nat)
  match kKind k with
  | 3 =>
    let px := 16 * tx - lHalo k + u
    let py := 16 * ty - lHalo k + v
    let dst := blockAt (kDst k) (kDS k 1) (kDS k 2) k e u v
    if inMap k px py then Move.copy c core (pixelAt (kSrc k) (kSS k 1) k px py) dst (lP k) m
    else do
      let (_, m) ← Move.run c core dst (lP k) 1 (fun _ m => .ok (List.replicate (lP k) 0#8, (), m)) () m
      pure m
  | 4 =>
    if inMap k (16 * tx + u) (16 * ty + v) then
      Move.copy c core (blockAt (kSrc k) (kSS k 1) (kSS k 2) k e u v) (pixelAt (kDst k) (kDS k 1) k (16 * tx + u) (16 * ty + v))
        (lP k) m
    else .ok m
  | _ =>
    if inMap k (16 * tx + u) (16 * ty + v) then
      Move.copy c core (pixelAt (kSrc k) (kSS k 1) k (16 * tx + u + entDX x) (16 * ty + v + entDY x))
        (pixelAt (kDst k) (kDS k 1) k (16 * tx + u) (16 * ty + v)) (lP k) m
    else .ok m

/-- Pixels on a side of an entry's square. -/
def entrySide (k : Nat) : Nat := if kKind k = 3 then 16 + 2 * lHalo k else 16

/-- An entry is one that the kind uses. -/
def entryUsed (k x : Nat) : Bool := entAct x == (if kKind k = 5 then 1 else 0)

/-- The entries in list order (R261). -/
def Move.list (c : CCmd) (core : Nat) (m : Move) : Res Move :=
  Move.upTo (fun e m => do
    let (x, m) ← m.nat c core (kAux c.k + 4 * e) 4
    needAt (entryOk c.k x) .commandField (kAux c.k + 4 * e)
    if entryUsed c.k x then
      let n := entrySide c.k
      Move.upTo (fun i m => Move.pixel c core e x (i % n) (i / n) m) (n * n) m
    else pure m) (lE c.k) m

/-! ### PGATH (R263) -/

/-- One page gathered. -/
def Move.page (c : CCmd) (core j : Nat) (m : Move) : Res Move := do
  let k := c.k
  let (i, m) ← m.nat c core (kSrc k + 4 * j) 4
  needAt (decide (i < pgLen k)) .commandField (kSrc k + 4 * j)
  let e := wrapInt 64 (kAux k + 8 * i : Nat)
  let (p, m) ← m.nat c core e 8
  let va := fld p 0 48
  needAt (bit p 63 && fld p 48 15 == 0 && va % pgSize k == 0) .commandField e
  Move.copy c core va (wrapInt 64 ((kDst k : Int) + (j : Int) * kDS k 1)) (pgSize k) m

/-! ### A payload -/

/-- Bytes that a payload has written. -/
def Move.bytes (m : Move) : Nat := (m.out.map (fun w => w.bytes.length)).foldl (· + ·) 0

/-- The payload of a copy command and its byte count n (Table 12.2). DEDUCED (assumption 144): a COMMAND_FIELD found as it runs
carries the address of what broke the rule. -/
def State.payload (s : State) (c : CCmd) (core : Nat) : Res (Nat × Move) := do
  let k := c.k
  let m := Move.start s
  match kKind k with
  | 1 => if kBit0 k then pure (nestBytes k, ← Move.zx c core m) else pure (dstRun k * nestRuns k, ← Move.nest c core m)
  | 2 => pure (nestBytes k, ← s.copyz c core)
  | 6 => pure (kCount k 0 * pgSize k, ← Move.upTo (Move.page c core) (kCount k 0) m)
  | 7 => pure (nestBytes k, ← Move.fill c core m)
  | 8 => pure (nestBytes k, ← Move.nest c core m)
  | _ => do
    let m ← Move.list c core m
    pure (m.bytes, m)

/-- A copy command's payload moved, or what is left of it where its source has been read; its byte count. -/
def State.runCopy (s : State) (c : CCmd) (core : Nat) : Res (Nat × State) :=
  match c.todo with
  | some l => do pure (c.bytes, ← s.putWrites c core l)
  | none => do
    let (n, m) ← s.payload c core
    pure (n, m.t)

/-- The payload passes the decompressor or the format converter, which carry no check (R269, R388). -/
def unchecked (k : Nat) : Bool := usesConv k || kKind k == 2 || (kKind k == 1 && kBit0 k)

/-! ### Queues -/

/-- The oldest unstarted command may start (R247): events, room among the running, and SER. -/
def State.copyMay (s : State) (core : Nat) (q : List CCmd) (c : CCmd) : Bool :=
  let m := kWaitmask c.k
  let busy := (q.filter (fun x => x.started)).length
  (s.strand core).live && (s.strand core).regs.e &&& m == m && decide (busy < 4) && (!kSer c.k || busy == 0)

/-- A running command of a kind whose payload has not moved: the oldest, or another where several run (R247). -/
def pickRunning (kind time : Nat) (q : List CCmd) : Option Nat :=
  let is := (List.range q.length).filter (fun i =>
    let c := lget q i { k := 0, text := 0 }
    kKind c.k == kind && c.started && !c.done)
  match is with
  | [] => none
  | [i] => some i
  | l => some (lget l (Config.freeBits (time * 2 ^ 20) % l.length) 0)

/-- The command of a kind whose payload moves now: a running one, or the oldest unstarted one as it starts. -/
def State.copyPick (s : State) (kind core q : Nat) : Option Nat :=
  let l := (s.core core).cq q
  match pickRunning kind s.free l with
  | some i => some i
  | none =>
    match lfind (fun c => !c.started) l with
    | none => none
    | some i =>
      let c := lget l i { k := 0, text := 0 }
      if kKind c.k = kind ∧ s.copyMay core l c = true then some i else none

/-- A command of a core's queue changed. -/
def State.modCmd (s : State) (core q i : Nat) (f : CCmd → CCmd) : State :=
  s.modCore core (fun x => x.setCq q (lmod (x.cq q) i f))

/-- A payload of a kind moves (R247, R248). -/
def copyRun (kind core q : Nat) (s : State) : Host.Outcome State Fault Refusal :=
  match s.copyPick kind core q with
  | none => .next s
  | some i =>
    let s := { s with cur := core }
    let c := lget ((s.core core).cq q) i { k := 0, text := 0 }
    cmdOutcome s c.text 5 kind q (do
      let (n, s) ← s.runCopy c core
      let s := if unchecked c.k then s.spent (.copies core) else s
      pure (s.modCmd core q i (fun c => { c with started := true, done := true, bytes := n })))

/-- A running command reads its source, and its writes remain to be made (R247). -/
def copyGather (core q i : Nat) (s : State) : Host.Outcome State Fault Refusal :=
  match ((s.core core).cq q)[i]? with
  | none => .next s
  | some c =>
    if c.started = false ∨ c.done = true ∨ c.todo.isSome = true then .next s else
    let s := { s with cur := core }
    cmdOutcome s c.text 5 (kKind c.k) q (do
      let (n, m) ← s.payload c core
      let s := if unchecked c.k then m.s.spent (.copies core) else m.s
      pure (s.modCmd core q i (fun c => { c with todo := some m.out.reverse, bytes := n })))

/-- The place of an address for one core: its own scratchpad has two addresses (R185). -/
def placeOf (core va : Nat) : Nat :=
  match window va with
  | .spad none off => peerBase + core % 4 * 0x80000 + off
  | _ => va

/-- Two writes of a payload reach the same bytes. -/
def CWrite.meets (core : Nat) (a b : CWrite) : Bool :=
  a.clu == b.clu && decide (placeOf core a.va < placeOf core b.va + b.bytes.length)
    && decide (placeOf core b.va < placeOf core a.va + a.bytes.length)

/-- A running command that has read its source makes one of its writes, or the first n bytes of it, up to a whole 64-bit word;
the writes have no order but where two of them reach the same bytes (R247, R252). -/
def copyWrite (core q i j n : Nat) (s : State) : Host.Outcome State Fault Refusal :=
  match ((s.core core).cq q)[i]? with
  | none => .next s
  | some c =>
    match c.todo with
    | none => .next s
    | some l =>
      match l[j]? with
      | none => .next s
      | some w =>
        let n := if (w.va + n) % 8 = 0 ∧ n ≤ w.bytes.length then n else w.bytes.length
        if c.done = true ∨ (l.take j).any (CWrite.meets core w) = true then .next s else
        let s := { s with cur := core }
        cmdOutcome s c.text 5 (kKind c.k) q (do
          let s ← s.putWrite c core { w with bytes := w.bytes.take n }
          let rest := if n = w.bytes.length then [] else [{ w with va := w.va + n, bytes := w.bytes.drop n }]
          pure (s.modCmd core q i (fun c => { c with todo := some (l.take j ++ rest ++ l.drop (j + 1)) })))

/-- COPY (R252, R253, R259). -/
def execCopy (core q : Nat) (s : State) : Host.Outcome State Fault Refusal := copyRun 1 core q s
/-- COPYZ (R258). -/
def execCopyz (core q : Nat) (s : State) : Host.Outcome State Fault Refusal := copyRun 2 core q s
/-- GATHL (R261). -/
def execGathl (core q : Nat) (s : State) : Host.Outcome State Fault Refusal := copyRun 3 core q s
/-- SCATL (R261). -/
def execScatl (core q : Nat) (s : State) : Host.Outcome State Fault Refusal := copyRun 4 core q s
/-- MOTION (R261, R262). -/
def execMotion (core q : Nat) (s : State) : Host.Outcome State Fault Refusal := copyRun 5 core q s
/-- PGATH (R263). -/
def execPgath (core q : Nat) (s : State) : Host.Outcome State Fault Refusal := copyRun 6 core q s
/-- FILL (R255). -/
def execFill (core q : Nat) (s : State) : Host.Outcome State Fault Refusal := copyRun 7 core q s
/-- WSTORE (R254). -/
def execWstore (core q : Nat) (s : State) : Host.Outcome State Fault Refusal := copyRun 8 core q s

/-- The oldest unstarted command of a queue starts; its payload moves later (R247). -/
def State.copyStart (s : State) (core q : Nat) : State :=
  let l := (s.core core).cq q
  match lfind (fun c => !c.started) l with
  | none => s
  | some i =>
    if s.copyMay core l (lget l i { k := 0, text := 0 }) then s.modCmd core q i (fun c => { c with started := true })
    else s

/-- n bytes from an address lie in a range. -/
def inSpan (r : Int × Int) (va n : Nat) : Bool := decide (r.1 ≤ (va : Int)) && decide ((va : Int) + n ≤ r.2 + 1)

/-- A copy command reads n bytes at an address: of its source ranges, of the longest tile or stream its source can hold, or of
what its tables name. -/
def State.copyReads (s : State) (c : CCmd) (core va n : Nat) : Bool :=
  (readSpans c.k).any (inSpan · va n)
    || (s.pagesOf c.k core).any (fun p => decide (p ≤ va) && decide (va + n ≤ p + pgSize c.k))

/-- The ranges that a Girder command reads. -/
def GCmd.reads (c : GCmd) : List (Int × Int) :=
  let rs := match c.ch with
    | some st => chainRanges c.k c.fmt st
    | none => gRanges c.k c.fmt
  (rs.filter (fun (r : GRange) => r.acc == .rd)).map GRange.span

/-- A running command reads some bytes ahead of the others: the accesses of copy commands that run together, and those of one
Girder command, have no order among them (R243, R247). A 64-bit word is read whole (R48). Where the access would fault or wait,
it is made with the others. -/
def State.fetchAhead (s : State) (unit : CmdUnit) (i va n : Nat) : State :=
  let lo := va / 8 * 8
  let len := cdiv (va + n) 8 * 8 - lo
  match unit with
  | .copy core q =>
    match ((s.core core).cq q)[i]? with
    | none => s
    | some c =>
      if c.started = false ∨ c.done = true ∨ c.todo.isSome = true ∨ s.copyReads c core va n = false then s else
      match ({ s with cur := core } : State).cmdRds (c.reader core) lo len with
      | .error _ => s
      | .ok (bs, t) => t.modCmd core q i (fun c => { c with ahead := withAhead c.ahead lo bs })
  | .girder m =>
    let s := s.modGirder m (fun g => g.passMarkers g.queue)
    match (s.girder m).firstCmd with
    | none => s
    | some c =>
      if (s.girder m).fenced = true ∨ s.gReady c = false ∨ c.reads.any (inSpan · va n) = false then s else
      match ({ s with cur := c.core } : State).cmdRds c.who lo len with
      | .error _ => s
      | .ok (bs, t) => t.modGirder m (fun g => { g with queue := g.queue.map (fun e =>
          if e == .cmd c then .cmd { c with started := true, ahead := withAhead c.ahead lo bs } else e) })

/-! ### Completion -/

/-- Completion of the oldest command of a copy queue (R248, R264). -/
def copyComplete (core q : Nat) (s : State) : Host.Outcome State Fault Refusal :=
  match (s.core core).cq q with
  | [] => .next s
  | c :: l =>
    if c.done = false then .next s else
    let s := { s with cur := core }
    match (s.modCore core (fun x => x.setCq q l)).complete .c c.k c.bytes c.acted with
    | .ok s => .next (s.dropRetired core)
    | .error x => cmdOutcome s c.text 5 (kKind c.k) q (.error x)

/-- The next completion action of the oldest command of a unit, as a step of its own (R264). -/
def State.completeStep (s : State) (unit : CmdUnit) : Host.Outcome State Fault Refusal :=
  match unit with
  | .copy core q =>
    match (s.core core).cq q with
    | [] => .next s
    | c :: _ =>
      if c.done = false ∨ 4 ≤ c.acted then .next s else
      cmdOutcome { s with cur := core } c.text 5 (kKind c.k) q
        ((({ s with cur := core } : State).action .c c.k c.bytes c.acted).map (fun t =>
          t.modCmd core q 0 (fun c => { c with acted := c.acted + 1 })))
  | .girder n =>
    let s := s.modGirder n (fun g => g.passMarkers g.queue)
    match (s.girder n).queue with
    | .cmd c :: l =>
      if c.done = false ∨ 4 ≤ c.acted then .next s else
      cmdOutcome { s with cur := c.core } c.text 4 (kKind c.k) 2
        ((({ s with cur := c.core } : State).action .m c.k c.bytes c.acted).map (fun t =>
          t.modGirder n (fun g => { g with queue := .cmd { c with acted := c.acted + 1 } :: l })))
    | _ => .next s

/-- A Girder command has left the queue and completes (R264, R278, R288): D enters M→S and the report is held. -/
def State.girderFinish (s : State) (c : GCmd) : Res State := do
  let s ← (if gDelta c.k then do
      let s ← s.push 4 (some (BitVec.ofNat 64 c.d))
      pure ((s.modQs (fun q => { q with msPushed := true })).modSt (fun t =>
        { (t.hold s.free (.delta (hw c.k 54) (kCount c.k 3) c.d)) with deltaOut := t.deltaOut - 1 }))
    else .ok s)
  let s ← s.complete .m c.k c.bytes c.acted
  pure (s.dropRetired c.core)

/-- Completion of the oldest command of a Girder queue. -/
def girderComplete (n : Nat) (s : State) : Host.Outcome State Fault Refusal :=
  let s := s.modGirder n (fun g => g.passMarkers g.queue)
  match (s.girder n).queue with
  | .cmd c :: l =>
    if c.done = false then .next s else
    let s' := { s with cur := c.core }.modGirder n (fun g => { g with queue := l })
    match s'.girderFinish c with
    | .error .stall => .next s
    | r => cmdOutcome s' c.text 4 (kKind c.k) 2 r
  | _ => .next s

/-- COMMAND_COMPLETION (R264). -/
def execCommandCompletion (unit : CmdUnit) (s : State) : Host.Outcome State Fault Refusal :=
  match unit with
  | .copy core q => copyComplete core q s
  | .girder n => girderComplete n s

end Sys2Proof.Machine
end

