-- ==== Sys2Proof/Machine/Fetch.lean ====
section
/-! DEFINITION. The walk of a sequencer over the text, the checks a word meets before it issues, and the turns of the
model's agents (R80, R81, R115, R389). -/

namespace Sys2Proof.Machine

/-- The guard of an SA word (R56). -/
def guardOf : Instr → Option Guard
  | .alu _ _ _ _ g | .muldiv _ _ _ _ g | .cmp _ _ _ _ g | .lea _ _ _ _ g | .ctos _ g | .stoc _ g
  | .cmaint _ _ _ _ g | .waita _ _ _ _ _ g | .barArrive _ _ g | .barExpect _ _ g | .barWait _ _ g
  | .barArriveExpect _ _ _ g | .fput _ _ g | .fget _ _ g | .fpeek _ _ g | .talloc _ _ _ _ g | .tseal _ g
  | .tread _ _ g | .tret _ g | .spawn _ g | .join _ _ g | .psnap _ _ g | .prel _ g => some g
  | _ => none

/-- The guard of a word, if it has one, holds. -/
def State.passes (s : State) (i : Instr) : Bool := s.guardOk ((guardOf i).getD .always)

/-- Registers a guard reads. -/
def condRead : Guard → List Nat
  | .always => []
  | .cond _ _ => [32]

/-- Registers an event selector reads. -/
def evRead : EvSel → List Nat
  | .one _ => []
  | .mask a => [a]

/-- Registers of the scalar file that a word reads whose guard, if it has one, holds: 0 to 31 scalars, 32 conditions, 33
to 40 branch targets (R115, Table 5.8). -/
def scalarReads : Instr → List Nat
  | .alu f d a b _ => (if f = .sel then [d] else []) ++ [a, b]
  | .muldiv _ _ a b _ | .cmp _ _ a b _ | .lea _ a b _ _ => [a, b]
  | .addi _ a _ | .andi _ a _ | .ori _ a _ | .xori _ a _ | .shli _ a _ | .shri _ a _ | .srai _ a _ => [a]
  | .luh d _ => [d]
  | .cmpi _ _ a _ => [a]
  | .ctos _ _ => [32]
  | .stoc a _ => [a]
  | .ld _ a _ _ _ | .lds _ a _ _ _ | .lda _ a _ _ _ _ => [a]
  | .st d a _ _ _ | .stl d a _ _ _ _ => [d, a]
  | .amo _ _ a b _ _ => [a, b]
  | .cas d a b _ _ => [d, a, b]
  | .cmaint _ _ a b _ | .waita _ _ _ a b _ => [a, b]
  | .barArrive _ a _ => [a]
  | .barExpect a b _ | .barWait a b _ | .barArriveExpect _ a b _ => [a, b]
  | .fput a b _ => [a, b]
  | .fget _ a _ | .fpeek _ a _ => [a]
  | .xfer bt _ u _ _ _ => (if u = 0 then [32] else []) ++ [33 + bt]
  | .trap d _ => [d]
  | .evwait e _ | .evsig e | .evclr e => evRead e
  | .qpush _ a | .fpush a | .pset _ a => [a]
  | .talloc _ _ a b _ => [a, b]
  | .tseal a _ | .tread _ a _ | .tret a _ | .spawn a _ | .join _ a _ => [a]
  | .syswr a _ => [a]
  | .psnap _ a _ | .prel a _ => [a]
  | _ => []

/-- The vector operands that a word reads, each with the registers of its group (R105, R115); tile gives the element bits
of a tile register. -/
def vectorReads (tile : Nat → Nat) : Instr → List (VSrc × Nat)
  | .vadd _ a b _ _ _ | .vsub _ a b _ _ _ | .vmul _ a b _ _ _ => [(a, 1), (b, 1)]
  | .vfma (.reg n) a b _ _ _ | .vfnma (.reg n) a b _ _ _ => [(a, 1), (b, 1), (.reg n, 1)]
  | .vfma _ a b _ _ _ | .vfnma _ a b _ _ _ => [(a, 1), (b, 1)]
  | .vmin _ a b _ _ | .vmax _ a b _ _ => [(a, 1), (b, 1)]
  | .vun _ _ a _ | .vaddi _ a _ | .vrint _ a _ _ | .vexp2f _ a | .vrcp _ a _ | .vrsq _ a _ => [(a, 1)]
  | .vlog _ _ a b _ | .vsh _ _ a b _ | .vcmp _ _ a b _ | .vsel _ a b _ | .vscaleb _ a b => [(a, 1), (b, 1)]
  | .vmulw _ a b _ _ => [(a, 1), (b, 1)]
  | .vaddw _ a b ty _ _ => [(a, 32 / ty.bits), (b, 1)]
  | .vnarr _ a ty _ _ => [(a, 32 / ty.bits)]
  | .vcvt _ a _ sty ty _ _ => [(a, sty.bits / min sty.bits ty.bits)]
  | .vquant _ a b _ _ => [(a, 4), (b, 1)]
  | .vdeq _ a b _ => [(a, 1), (b, 1)]
  | .vred _ _ a _ | .vbcast _ a _ _ | .vslide _ a _ _ | .vqpush _ a => [(a, 1)]
  | .vtopk _ a b _ | .vperm _ a b _ => [(a, 1), (b, 1)]
  | .vshuf (.reg n) a b _ => [(a, 1), (b, 1), (.reg n, 1)]
  | .vshuf _ a b _ => [(a, 1), (b, 1)]
  | .vtw a t _ _ cv _ => [(a, max 1 ((cv.map (·.bits)).getD (tile t) / tile t))]
  | .vamo _ d a _ _ _ _ | .vscat d a _ _ _ _ => [(.q, 1), (a, 1), (d, 1)]
  | .vgath _ a _ _ _ _ => [(.q, 1), (a, 1)]
  | _ => []

/-- The destination of a word of V that writes lanes. -/
def vecDst : Instr → Option VDst
  | .vadd d _ _ _ _ _ | .vsub d _ _ _ _ _ | .vmul d _ _ _ _ _ | .vfma d _ _ _ _ _ | .vfnma d _ _ _ _ _
  | .vmin d _ _ _ _ | .vmax d _ _ _ _ | .vun _ d _ _ | .vlog _ d _ _ _ | .vsh _ d _ _ _ | .vaddi d _ _
  | .vmulw d _ _ _ _ | .vaddw d _ _ _ _ _ | .vnarr d _ _ _ _ | .vsel d _ _ _ | .vcvt d _ _ _ _ _ _
  | .vquant d _ _ _ _ | .vdeq d _ _ _ | .vrint d _ _ _ | .vexp2f d _ | .vscaleb d _ _ | .vrcp d _ _ | .vrsq d _ _
  | .vred _ d _ _ | .vtopk d _ _ _ | .vperm d _ _ _ | .vshuf d _ _ _ | .vbcast d _ _ _ | .viota d _
  | .vslide d _ _ _ | .vtr d _ _ _ _ _ | .vgath d _ _ _ _ _ => some d
  | _ => none

/-- Tile registers that a word reads (R115). -/
def tileReads : Instr → List Nat
  | .vtr _ t _ _ _ _ => [t]
  | .tst a _ _ _ => [a]
  | .tmov _ _ a _ => [a]
  | .tscal _ _ a _ => [a]
  | .tadd _ _ a _ b _ => [a, b]
  | _ => []

/-- Tokens that a word reads: a mask. -/
def tokenReads : Instr → Nat
  | .wait m | .vwait m | .mwait m | .cwait m => m
  | .sysrd _ idx => if idx = 0x012 then 255 else 0
  | _ => 0

/-- Queues whose front entry a word pops: 0 to 5 the data queues, 6 fq, 7 to 10 the outcome queues (R115, R136). -/
def queueReads : Instr → List Nat
  | .qpop sel _ => if sel = 2 then [7] else [3 + sel]
  | .vbq _ _ => [8]
  | .mbq _ _ => [9]
  | .cbq _ _ => [10]
  | .tscal _ _ _ _ | .msetq _ _ | .tld _ _ _ _ | .tst _ _ _ _ | .morder => [1]
  | .ccode _ | .csetq _ _ | .cmlist _ _ => [2]
  | _ => []

/-- Bonds that the step of a chain reads (R298, R303). -/
def bondReads (x i : Nat) : List Nat :=
  let d := cpCores x
  let left (k : Nat) : List Nat := if k = 0 then [] else [k - 1]
  let right (k : Nat) : List Nat := if k + 1 = d then [] else [k]
  let k := cpCore x i
  left k ++ right k ++ (if i = 0 then [] else left (cpSpan x (i - 1)).1 ++ right (cpSpan x (i - 1)).2)

/-- What MISSUE reads beside its command register: bonds of a CHAIN, fq and V→M (R144, R280, R303). -/
def State.missueReads (s : State) (kn : Nat) : List UpsetPlace :=
  let k := s.regK kn
  let c := s.st.chain
  (if kKind k = 3 then
    match c.prog with
    | some x => (bondReads x c.step).map (fun n => .scalar (s.regCtx s.cur) (41 + n))
    | none => []
  else []) ++ (if popsFq k then [.queue (s.regCtx s.cur) 6] else [])
    ++ (if popsVm k then [.queue (s.regCtx s.cur) 5] else [])

/-- The places of the core that a word reads at its issue (R115, R387). -/
def State.reads (s : State) (i : Instr) : List UpsetPlace :=
  let k := s.regCtx s.cur
  (condRead ((guardOf i).getD .always)).map (.scalar k) ++
  if s.passes i = false then [] else
  (scalarReads i).map (.scalar k)
    ++ (vectorReads (fun t => codeBits (s.tileTy t)) i).flatMap (fun p => match p.1 with
      | .reg n => (List.range p.2).map (fun j => .vector k (n + j))
      | .port n => [.port k n]
      | .q => [.queue k 0]
      | .zero => [])
    ++ (match vecDst i with
      | some (.port n) => [.port k n]
      | _ => [])
    ++ (tileReads i).map (.tile k)
    ++ ((List.range 8).filter (bit (tokenReads i))).map (.token k)
    ++ (queueReads i).map (.queue k)
    ++ (match i with
      | .missue kn _ => .command k kn :: s.missueReads kn
      | .cissue kn _ => [.command k (4 + kn)]
      | .evwait _ _ => [.event k]
      | .sysrd _ idx =>
        if idx = 0x012 then [.event k]
        else if 0x208 ≤ idx ∧ idx ≤ 0x20B then (List.range 4).map (fun j => .scalar k (41 + 4 * (idx - 0x208) + j))
        else []
      | _ => [])

/-- A bit error in what a word reads (R115, R387). -/
def State.regUpset (s : State) (i : Instr) : Option Upset :=
  if s.upsets.isEmpty then none else s.upsets.find? (fun u => (s.reads i).contains u.place)

/-- A bit error in the word of instruction memory at a text offset (R387). -/
def State.imemUpset (s : State) (off : Nat) : Option Upset := s.upsets.find? (fun u => u.place == .imem s.cur off)

/-- The correction counted in SEQ_CORR (Table 5.8), which has a field for the registers of these four files only
(assumption 121). -/
def Core.countCorr (c : Core) : UpsetPlace → Core
  | .scalar _ _ => { c with scorr := satAdd 0xFFFF c.scorr 1 }
  | .vector _ _ => { c with vcorr := satAdd 0xFFFF c.vcorr 1 }
  | .tile _ _ => { c with tcorr := satAdd 0xFFFF c.tcorr 1 }
  | .command _ _ => { c with kcorr := satAdd 0xFFFF c.kcorr 1 }
  | _ => c

/-- A bit error that an issuing word of an engine consumes: corrected, and the word issues again, or a core hardware fault
(R115, R381). -/
def State.consume (s : State) (e : Eng) (u : Upset) : Host.Outcome State Fault Refusal :=
  if u.uncorr then outcome e (s.dropUpset u) (.error (.fault { code := .memoryUe, cause := 1, precise := false }))
  else .next ((s.corrected u).modCore s.cur (fun c => c.countCorr u.place))

/-! ### The Trestle -/

/-- The word hands an item to the Trestle, which compares it before it leaves the core (R389). -/
def State.trestleChecks (s : State) : Instr → Bool
  | .qpush _ _ | .fpush _ | .qmark _ | .pset _ _ | .cissue _ _ | .cmlist _ _ | .st _ _ _ _ _ | .stl _ _ _ _ _ _
  | .amo _ _ _ _ _ _ | .cas _ _ _ _ _ | .syswr _ _ | .commit => true
  | .xfer _ _ _ _ _ bm => bm != 0
  | .spawn _ g => s.guardOk g
  | .halt => s.st.commit == .run
  | _ => false

/-- n bytes at the own-scratchpad address in s[a]. -/
def State.ownNat (s : State) (a n : Nat) : Nat := mnat (s.core s.cur).spad ((s.rdS a).toNat - spadBase) n

/-- The item of a checked word as numbers (R389, R396, assumption 110): the word, and what it pushes, stores, sends or
appends. -/
def State.trestleItem (s : State) (i : Instr) : List Nat :=
  let reg (n : Nat) : Nat := (s.rdS n).toNat
  encode i :: (match i with
    | .qpush _ a | .fpush a => [reg a]
    | .xfer _ _ u ci cs _ => [b2n (u == 1 || (s.getC ci != (cs == 1)))]
    | .pset _ a => [s.ownNat a 48]
    | .cissue kn _ => [(lget s.st.regs.kc kn 0#1024).toNat]
    | .cmlist _ _ => ((s.queue 2).take 1).map (fun x => (x.getD 0#64).toNat)
    | .st d a _ sz off => [s.effAddr a 8 off (sizeBytes sz), reg d]
    | .stl d a _ _ sz off => [s.effAddr a 5 off (wsizeBytes sz), reg d]
    | .amo _ _ a b _ _ => [reg a, reg b]
    | .cas d a b _ _ => [reg d, reg a, reg b]
    | .syswr a _ => [reg a]
    | .spawn a _ => [s.ownNat a 64]
    | _ => [])

/-- Registers of the group that a word of V writes (R105); wt gives the element bits of a tile. -/
def vecDstGroup (wt : Nat → Nat) : Instr → Nat
  | .vmulw _ _ _ ty _ | .vaddw _ _ _ ty _ _ => 32 / ty.bits
  | .vcvt _ _ _ sty ty _ _ => ty.bits / min sty.bits ty.bits
  | .vdeq _ _ _ _ => 4
  | .vtr _ t _ _ cv _ => max 1 ((cv.map (·.bits)).getD (wt t) / wt t)
  | _ => 1

/-- Registers that a word has overwritten whole, whose bit errors go with what they held (R387). -/
def State.overwrites (s : State) (i : Instr) : List UpsetPlace :=
  let k := s.regCtx s.cur
  if s.passes i = false then [] else
  match i with
  | .alu _ d _ _ _ | .muldiv _ d _ _ _ | .addi d _ _ | .andi d _ _ | .ori d _ _ | .xori d _ _ | .shli d _ _ | .shri d _ _
  | .srai d _ _ | .lui d _ | .lea d _ _ _ _ | .ctos d _ | .sysrd d _ | .qpop _ d | .fget d _ _ | .fpeek d _ _
  | .talloc _ d _ _ _ | .tread d _ _ | .join d _ _ | .psnap d _ _ | .waita _ _ d _ _ _ | .barArrive d _ _
  | .barArriveExpect d _ _ _ => [.scalar k d]
  | .stoc _ _ => [.scalar k 32]
  | .ptg bt _ => [.scalar k (33 + bt)]
  | .xfer _ l _ _ _ _ => if l = 1 then [.scalar k 40] else []
  | .mbond n _ => [.scalar k (41 + n)]
  | .tzero d | .tmov d _ _ _ | .tscal d _ _ _ | .tadd d _ _ _ _ _ => [.tile k d]
  | .tcfg d keep _ => if keep = 0 then [.tile k d] else []
  | .vred _ (.reg n) _ _ | .vtopk (.reg n) _ _ _ | .vsel (.reg n) _ _ _ => [.vector k n]
  | i => match vecDst i with
    | some (.reg n) =>
      if s.mask = BitVec.allOnes 128 then
        (List.range (vecDstGroup (fun t => codeBits (s.tileTy t)) i)).map (fun j => .vector k (n + j))
      else []
    | _ => []

/-- Words of S whose effect stays within the registers, and plain loads and stores: every other word of S is ordered with
every class of it, or joins what S has done to another engine (R193, R229). -/
def plainS : Instr → Bool
  | .nop | .alu _ _ _ _ _ | .muldiv _ _ _ _ _ | .addi _ _ _ | .andi _ _ _ | .ori _ _ _ | .xori _ _ _ | .shli _ _ _
  | .shri _ _ _ | .srai _ _ _ | .lui _ _ | .luh _ _ | .cmp _ _ _ _ _ | .cmpi _ _ _ _ | .lea _ _ _ _ _ | .ctos _ _
  | .stoc _ _ | .ld _ _ _ _ _ | .lds _ _ _ _ _ | .st _ _ _ _ _ | .ptg _ _ => true
  | _ => false

/-- Bit errors of places that have been overwritten are gone. -/
def State.overwritten (s : State) (ps : List UpsetPlace) : State :=
  if s.upsets.isEmpty then s else { s with upsets := s.upsets.filter (fun u => !ps.contains u.place) }

/-- What follows a word of an engine that has left it (R80): a word that orders S's accesses finds its loads performed
(R229), its item enters the signature of a Parapet context (R396), and
bit errors of the registers that it has overwritten are gone. s is the state in which the word issued. -/
def State.leave (s : State) (i : Instr) (e : Eng) (t : State) : State :=
  let left := t.st.live && ((t.st.eng e).walk == (s.st.eng e).walk + 1
    || (t.st.commit != s.st.commit && (s.st.commit == .run)) || (t.st.halted && !s.st.halted))
  if left = false then t else
  let t := if e = .s ∧ plainS i = false then t.modStrand s.cur (fun x => x.fixed .s (fun _ => true)) else t
  let t := if (t.core s.cur).inPar && s.trestleChecks i then
      t.modCore s.cur (fun c => { c with crc := (s.trestleItem i).foldl Config.crcStep c.crc % 2 ^ 32 })
    else t
  t.overwritten (s.overwrites i)

/-- The outcome of a word with what follows it. -/
def State.leaving (s : State) (i : Instr) (e : Eng) (o : Host.Outcome State Fault Refusal) :
    Host.Outcome State Fault Refusal :=
  match o with
  | .next t => .next (s.leave i e t)
  | o => o

/-- Where a sequencer stops after passing foreign words of its line (R80, R81). -/
inductive Pass where
  | own (pc walk : Nat)
  | line (pc walk : Nat)
  | held (pc walk : Nat)
  | textEnd (pc walk : Nat)
  deriving DecidableEq, Repr

/-- Foreign words passed within one 64-byte line while the walk count stays below a limit (R80, R81). -/
def passWords (tag : Nat) (lim : Option Nat) : List Nat → Nat → Nat → Pass
  | [], pc, walk => .textEnd pc walk
  | w :: l, pc, walk =>
    if (match lim with | some n => decide (n ≤ walk) | none => false) then .held pc walk
    else if tagOf w = tag then .own pc walk
    else if (pc + 4) % 64 = 0 then .line (pc + 4) (walk + 1)
    else passWords tag lim l (pc + 4) (walk + 1)

/-- A sequencer counts for the slip unless it has gone idle (R81, R53). -/
def State.walking (s : State) (k : Nat) (e : Eng) : Bool := !s.idle k e

/-- The least walk count among the other walking engines, plus the slip bound in force (R81, R82). -/
def State.slipLimit (s : State) (k : Nat) (e : Eng) : Option Nat :=
  let t := s.strand k
  let ws := (engines.filter (fun x => x != e && s.walking k x)).map (fun x => (t.eng x).walk)
  match ws with
  | [] => none
  | w :: l => some (l.foldl min w + t.bound s.now)

/-- The word at an engine's program counter issues, or raises its decode fault (R52). -/
def issueWord (run : Instr → State → Host.Outcome State Fault Refusal) (e : Eng) (w : Nat) (s : State) :
    Host.Outcome State Fault Refusal :=
  match s.imemUpset (s.st.eng e).pc with
  | some u => s.consume e u
  | none =>
  match decodeWord w with
  | .error _ => outcome e s (raiseF .illegalEncoding)
  | .ok i =>
    match s.regUpset i with
    | some u => s.consume e u
    | none =>
      if e = .s ∧ plainS i = false ∧ s.st.storing .s none = true then .next s
      else if (s.core s.cur).trestleBad && s.trestleChecks i then
        outcome e (s.modCore s.cur (fun c => { c with trestleBad := false })) (raiseF .checkerMismatch)
      else s.leaving i e (run i s)

/-- How far a sequencer's walk comes in a cycle (R80): over the foreign words of the line that it holds already, and over
those of the next line, which it may take in the same cycle. -/
def State.pass (s : State) (k : Nat) (e : Eng) : Pass :=
  let x := (s.strand k).eng e
  let go (pc walk : Nat) := passWords (engNo e) (s.slipLimit k e) ((s.text k).drop (pc / 4)) pc walk
  match go x.pc x.walk with
  | .line pc walk => if x.line = x.pc / 64 + 1 then go pc walk else .line pc walk
  | p => p

/-- A sequencer's pc and walk moved, in a line that it has taken. -/
def State.moveTo (s : State) (e : Eng) (pc walk line : Nat) : State :=
  s.modSt (fun t => t.modEng e (fun x => { x with pc := pc, walk := walk, line := line }))

/-- A gang starts as one (R188, R194, assumption 138): every member's strand has started, or has ended. -/
def State.gangUp (s : State) (k : Nat) : Bool :=
  match s.gang (s.strand k).gang with
  | none => true
  | some g => g.members.all (fun m => m.ended || ((s.strand m.core).live && (s.strand m.core).gang == g.id))

/-- The stall count of an ordinary strand has reached its limit: WATCHDOG ends it (R386). -/
def State.overdue (s : State) (k : Nat) : Bool :=
  !(s.core k).inPar && (s.strand k).commit != .done && decide (s.err.wdog ≤ (s.strand k).stall)

/-- The deadline of a Parapet run has passed (R398). -/
def State.tooLate (s : State) (k : Nat) : Bool :=
  (s.core k).inPar && s.err.run && decide (s.err.startAt + 2300 * s.err.dead < s.now)

/-- A sequencer may act: the device is ready, the strand runs, is not stopped and not at its limit, its gang has started, and it
has a cycle free (R13, R80, R117, R371, R386, R398, R431). -/
def State.mayAct (s : State) (k : Nat) (e : Eng) : Bool :=
  let t := s.strand k
  s.power.ready && !s.tooLate k && t.live && !t.stopped && !s.overdue k && s.gangUp k && decide ((t.eng e).next ≤ s.now) && !(e == .s && t.halted)
    && !s.idle k e

/-- What one cycle's turn of a sequencer does (R80). -/
def oneTurn (run : Instr → State → Host.Outcome State Fault Refusal) (s0 : State) (k : Nat) (e : Eng) :
    Host.Outcome State Fault Refusal :=
  if 128 ≤ k then .fault (.noSuchCore k) else
  let s := { s0 with cur := k }
  if s.mayAct k e = false then .next s else
  match s.pass k e with
  | .held pc walk => .next (s.moveTo e pc walk (pc / 64 + 1))
  | .line pc walk =>
    .next ((s.moveTo e pc walk (pc / 64)).modSt (fun t => t.modEng e (fun x => { x with next := s.now + 1 })))
  | .textEnd pc walk => outcome e (s.moveTo e pc walk (pc / 64 + 1)) (raiseF .illegalEncoding)
  | .own pc walk =>
    let s := s.moveTo e pc walk (pc / 64 + 1)
    if e ≠ .s ∧ s.st.beyond e pc = true then .next s
    else issueWord run e (lget (s.text k) (pc / 4) 0) s

/-- Where a sequencer's walk comes in this cycle. -/
def State.walkAt (s : State) (k : Nat) (e : Eng) : Nat :=
  match s.pass k e with
  | .own _ walk | .line _ walk | .held _ walk | .textEnd _ walk => walk

/-- A turn has ended the strand of a core: it raised a fault. -/
def State.ended (s : State) (k : Nat) : Host.Outcome State Fault Refusal → Bool
  | .next t => (s.strand k).live && !(t.strand k).live
  | _ => false

/-- Sequencers whose fault in the same cycle is recorded instead of one of core k's (R379): those of the strand at a lower
walk position, and those of the gang's members of lower index. -/
def State.rivals (s : State) (k : Nat) (e : Eng) : List (Nat × Eng) :=
  let t := s.strand k
  let below := ((s.gang t.gang).map (·.members)).getD []
  (engines.filter (fun x => x != e && decide (s.walkAt k x < s.walkAt k e))).map (fun x => (k, x))
    ++ (below.take t.member).flatMap (fun m => if m.ended then [] else engines.map (fun x => (m.core, x)))

/-- A turn of a sequencer with outcome o would raise a fault, and one that is recorded instead is due in the same cycle
(R379). -/
def State.yields (s : State) (run : Instr → State → Host.Outcome State Fault Refusal) (k : Nat) (e : Eng)
    (o : Host.Outcome State Fault Refusal) : Bool :=
  s.ended k o && (s.rivals k e).any (fun r => s.ended r.1 (oneTurn run s r.1 r.2))

/-- One cycle's turn of a sequencer (R80); it leaves the turn to one whose fault is recorded instead (R379). -/
def engineTurn (run : Instr → State → Host.Outcome State Fault Refusal) (s : State) (k : Nat) (e : Eng) :
    Host.Outcome State Fault Refusal :=
  let o := oneTurn run s k e
  if s.yields run k e o then .next s else o

/-- Cycles pass for a strand: its stall count, outside the post-commit region and a debug stop (R117, R386). -/
def Strand.tick (t : Strand) (now n : Nat) : Strand :=
  let t := t.settle now
  if t.live = false ∨ t.stopped = true ∨ t.commit = .done then { t with issued := false }
  else { t with stall := t.stall + (if t.issued then n - 1 else n), issued := false }

/-- n more cycles of an output that is sensed at another level than it drives (R430). -/
def Err.senseFor (e : Err) (n : Nat) : Err :=
  { e with off := e.off.mapIdx (fun i x => if e.sensed i = e.driven i then some 0 else x.map (· + n)) }

/-- n cycles pass. -/
def State.tick (s : State) (n : Nat) : State :=
  let now := s.now + n
  { s with now := now
           err := s.err.senseFor n
           cores := s.cores.map (fun (c : Core) =>
             { c with ord := c.ord.tick now n, par := c.par.settle now }) }

end Sys2Proof.Machine
end

