-- ==== Sys2Proof/Machine/Caisson.lean ====
section
/-! DEFINITION. The Caisson words and the pins of published buffers (spec/10_caisson_tile_pool.md R213 to R218,
spec/11 R242). -/

namespace Sys2Proof.Machine

/-- A tile handle (Table 10.2). -/
structure Handle where
  gen : Nat
  core : Nat
  unit : Nat
  cls : Nat
  deriving DecidableEq, Repr, Inhabited

/-- The handle a number holds; the core is the device's core number. -/
def handleOf (x : Nat) : Handle :=
  { gen := fld x 16 16, core := 4 * fld x 11 5 + fld x 9 2, unit := fld x 2 7, cls := fld x 0 2 }

/-- The number of a handle. -/
def Handle.num (h : Handle) : Nat := h.gen * 2 ^ 16 + h.core / 4 * 2 ^ 11 + h.core % 4 * 2 ^ 9 + h.unit * 4 + h.cls

/-- The tile-window address of a handle (R207). -/
def Handle.addr (h : Handle) : Nat := tileBase + h.core / 4 * 2 ^ 21 + h.core % 4 * 2 ^ 19 + h.unit * 4096

/-- The slot that a handle names in the task's pipeline instance (R213). DESIGN CHOICE (assumption 143): that is the instance of
the task's context, for a direct launch, a pinned service and the Parapet task too. -/
def State.slotNamed (s : State) (h : Handle) : Option Slot :=
  let ps := (s.cluster (h.core / 4)).parts.filter (fun p => p.ctx == s.st.task.ctx)
  (ps.flatMap (·.slots)).find? (fun x => x.core == h.core && x.unit == h.unit && x.cls == h.cls)

/-- The handle in s[A]; bits 63:32 must be zero (R213). -/
def State.handleArg (s : State) (a : Nat) : Res Handle := do
  let x := (s.rdS a).toNat
  need (decide (x < 2 ^ 32)) .illegalOperand
  pure (handleOf x)

/-- CAISSON_COUNT with a cause (Table 10.5). -/
def caisson {α : Type} (cause : Nat) : Res α := .error (.fault { code := .caissonCount, cause := cause })

/-- The named slot, current (R215 to R217 checks 1 and 2). -/
def State.slotCur (s : State) (h : Handle) : Res Slot :=
  match s.slotNamed h with
  | none => raiseF .permission
  | some x => if x.gen ≠ h.gen then caisson 1 else .ok x

/-- An access-table entry added, or reused with at least the right asked for (R208). -/
def addAcc (acc : List AccEntry) (e : AccEntry) : List AccEntry :=
  if acc.any (fun x => x.core == e.core && x.unit == e.unit) then
    acc.map (fun x => if x.core = e.core ∧ x.unit = e.unit then
      { x with write := x.write || e.write, retired := false } else x)
  else acc ++ [e]

/-- The slot has an entry already, or there is room for one (R208). -/
def accRoom (acc : List AccEntry) (core unit : Nat) : Bool :=
  acc.any (fun x => x.core == core && x.unit == unit) || decide (acc.length < 64)

/-- The pipeline edges of a context's instance (R205). -/
def State.edgesOf (s : State) (c : Nat) : List Edge :=
  match (s.ctx c).inst with
  | none => []
  | some (img, _, _) => ((s.sched.images.find? (fun i => i.handle == img)).map (·.edges)).getD []

/-- The lowest-addressed free slot of a partition (R214). -/
def Partition.firstFree (p : Partition) : Option Slot :=
  (lsort (fun x => x.core * 128 + x.unit) (p.slots.filter (fun x => x.st == .free))).head?

/-- The partition of an edge of a context. -/
def State.partition (s : State) (c e : Nat) : Option (Nat × Partition) :=
  match (s.ctx c).inst with
  | none => none
  | some (_, cl, _) => ((s.cluster cl).parts.find? (fun p => p.ctx == c && p.edge == e)).map (fun p => (cl, p))

/-- A partition's waiting order changed. -/
def State.setWaiting (s : State) (cl c e : Nat) (f : List Nat → List Nat) : State :=
  s.modCluster cl (fun x => { x with parts := x.parts.map (fun p =>
    if p.ctx = c ∧ p.edge = e then { p with waiting := f p.waiting } else p) })

/-- Class code of a size class. -/
def tclsCode : TClass → Nat
  | .c4 => 0
  | .c16 => 1
  | .c64 => 2

/-- TALLOC (R214). -/
def execTalloc (k : TClass) (d a b : Nat) (g : Guard) (s : State) : Host.Outcome State Fault Refusal :=
  guardedPre g s (do
    let (e, cnt) := match s.st.poll with
      | some p => (p.va, p.y.toNat)
      | none => ((s.rdS a).toNat, (s.rdS b).toNat)
    let c := s.st.task.ctx
    let ed ← match (s.edgesOf c)[e]? with
      | some ed => if ed.src = s.st.task.stage then .ok ed else raiseF .illegalOperand
      | none => raiseF .illegalOperand
    need (ed.cls == tclsCode k) .illegalOperand
    need (decide (cnt ≤ 15)) .illegalOperand
    need (decide (s.st.acc.length < 64)) .illegalOperand
    match s.partition c e with
    | none => raiseF .illegalOperand
    | some (cl, p) =>
      let queued := (s.setWaiting cl c e (fun w => if w.contains s.cur then w else w ++ [s.cur])).modSt (fun t =>
        { t with poll := some { va := e, core := 0, off := 0, test := none, y := BitVec.ofNat 64 cnt, quiet := true } })
      match p.firstFree with
      | none => .error (.hold queued)
      | some x =>
        if p.waiting.head?.getD s.cur ≠ s.cur then .error (.hold queued) else
        let s := (s.setWaiting cl c e (fun w => w.filter (· != s.cur))).modSt (fun t => { t with poll := none })
        let gid := s.st.gang
        let s := s.modSlot x.core x.unit (fun y => { y with st := .opened, count := cnt, gang := gid, bytes := [], give := false })
        let s := s.modSt (fun t => { t with acc := addAcc t.acc ⟨x.core, x.unit, x.cls, true, false⟩ })
        pure (s.putS d (BitVec.ofNat 64 (Handle.num ⟨x.gen, x.core, x.unit, x.cls⟩))))

/-- Every entry of a gang for a slot loses write right (R215). -/
def State.dropWrite (s : State) (gang core unit : Nat) : State :=
  let fix (t : Strand) : Strand :=
    if t.live && t.gang == gang then
      { t with acc := t.acc.map (fun x => if x.core = core ∧ x.unit = unit then { x with write := false } else x) }
    else t
  { s with cores := s.cores.map (fun (c : Core) => { c with ord := fix c.ord }) }

/-- TSEAL (R215). -/
def execTseal (a : Nat) (g : Guard) (s : State) : Host.Outcome State Fault Refusal :=
  guardedPre g s (do
    let h ← s.handleArg a
    let x ← s.slotCur h
    if x.st ≠ .opened ∨ x.gang ≠ s.st.gang then caisson 5
    else if x.count = 0 then caisson 3
    else pure ((s.modSlot x.core x.unit (fun y => { y with st := .pending })).dropWrite s.st.gang x.core x.unit))

/-- A slot admits the task's reads (Table 10.3). -/
def State.admits (s : State) (x : Slot) : Bool :=
  match x.st with
  | .free => false
  | .sealed => true
  | _ => x.gang == s.st.gang

/-- The committed count less the task's own decrements is at least 1 (R216 check 4). -/
def State.countLeft (s : State) (x : Slot) : Bool :=
  decide ((s.st.decs.filter (fun e => e.core == x.core && e.unit == x.unit && e.gen == x.gen)).length < x.count)

/-- One provisional decrement (R216). -/
def State.addDecr (s : State) (x : Slot) : State :=
  s.modSt (fun t => { t with decs := t.decs ++ [⟨x.core, x.unit, x.gen⟩] })

/-- TREAD (R216). -/
def execTread (d a : Nat) (g : Guard) (s : State) : Host.Outcome State Fault Refusal :=
  guardedPre g s (do
    let h ← s.handleArg a
    let x ← s.slotCur h
    if s.admits x = false then caisson 5
    else if x.st ≠ .opened ∧ s.countLeft x = false then caisson 2
    else
      need (accRoom s.st.acc x.core x.unit && decide (s.st.decs.length < 255)) .illegalOperand
      let s := if x.st = .opened then s else s.addDecr x
      let s := s.modSt (fun t => { t with acc := addAcc t.acc ⟨x.core, x.unit, x.cls, x.st == .opened, false⟩ })
      pure (s.putS d (BitVec.ofNat 64 h.addr)))

/-- Commands of a core that name a slot and have not completed (R217). -/
def State.cmdsName (s : State) (k : Nat) (n : SlotName) : Bool :=
  ((s.core k).ldq ++ (s.core k).stq).any (fun c => c.slots.contains n) ||
  s.clusters.any (fun c => c.gir.queue.any (fun e => match e with
    | .cmd g => g.core == k && g.slots.contains n
    | .marker _ => false))

/-- The strand's entry for a slot goes, once earlier commands that name it have completed (R217). -/
def State.dropEntry (s : State) (x : Slot) : State :=
  let busy := s.cmdsName s.cur ⟨x.core, x.unit⟩
  let fix (acc : List AccEntry) : List AccEntry :=
    if busy then acc.map (fun e => if e.core = x.core ∧ e.unit = x.unit then { e with retired := true } else e)
    else acc.filter (fun e => !(e.core == x.core && e.unit == x.unit))
  s.modSt (fun t => { t with acc := fix t.acc })

/-- TRET (R217): an open tile of the gang is marked to become free at COMMIT. -/
def execTret (a : Nat) (g : Guard) (s : State) : Host.Outcome State Fault Refusal :=
  guardedPre g s (do
    let h ← s.handleArg a
    let x ← s.slotCur h
    if x.st = .opened ∧ x.gang = s.st.gang then
      pure ((s.modSlot x.core x.unit (fun y => { y with give := true })).dropEntry x)
    else if s.admits x = false ∨ x.st = .opened then caisson 5
    else if s.countLeft x = false then caisson 2
    else pure ((s.addDecr x).dropEntry x))

/-- PSNAP (R242). -/
def execPsnap (d a : Nat) (g : Guard) (s : State) : Host.Outcome State Fault Refusal :=
  guardedPre g s (
    let h := (s.rdS a).toNat
    let t := s.st
    match (if h < 4096 then (s.ctx t.task.ctx).buf h else none) with
    | none => raiseF .illegalOperand
    | some b =>
      if 4 ≤ t.pins.length ∨ t.pins.any (fun p => p.buf == h) = true
          ∨ ((s.gang t.gang).map (fun g => g.wset.any (fun w => w.buf == h))).getD false = true then
        raiseF .illegalOperand
      else
        let s := s.modSt (fun t => { t with pins := t.pins ++ [⟨h, b.sel⟩] })
        .ok (s.putS d (BitVec.ofNat 64 b.version)))

/-- PREL (R242). -/
def execPrel (a : Nat) (g : Guard) (s : State) : Host.Outcome State Fault Refusal :=
  guardedPre g s (
    let h := (s.rdS a).toNat
    if h < 4096 ∧ s.st.pins.any (fun p => p.buf == h) = true then
      .ok (s.modSt (fun t => { t with pins := t.pins.filter (fun p => p.buf != h) }))
    else raiseF .illegalOperand)

end Sys2Proof.Machine
end

