-- ==== Sys2Proof/Machine/Keystone.lean ====
section
/-! DEFINITION. KLOAD, KPERM, and the rewriting of a matched group (spec/15_keystone.md R310 to R323). -/

namespace Sys2Proof.Machine

/-! ### The structure of a record (R315) -/

/-- Top byte of a word that a record may name: MNOP, TCFG, TZERO, TMOV, TSCAL, TADD, MSET, MSETQ, MISSUE. -/
def ruleOp (w : Nat) : Bool := [0x80, 0x81, 0x82, 0x85, 0x86, 0x87, 0x8B, 0x8C, 0x8D].contains (fld w 24 8)
/-- A word that pops S→M: TSCAL or MSETQ. -/
def ruleSm (w : Nat) : Bool := fld w 24 8 == 0x86 || fld w 24 8 == 0x8C
/-- A MISSUE, which pops fq and V→M. -/
def ruleIssue (w : Nat) : Bool := fld w 24 8 == 0x8D
/-- A command word: MSET, MSETQ or MISSUE. -/
def ruleCmd (w : Nat) : Bool := fld w 24 8 == 0x8B || fld w 24 8 == 0x8C || ruleIssue w

/-- Item 1: the limits of Table 15.1 and the entries beyond PLEN and RLEN. -/
def ruleFields (r : Nat) : Bool :=
  let pl := rPlen r
  let rl := rRlen r
  upTo1 pl 4 && decide (rl ≤ 4) && rClass r != 3 && rEcond r != 3 && fld r 21 3 == 0 && decide (rNref r ≤ 20)
    && (List.range 4).all (fun j => fld (rMap r j) 6 2 == 0
      && (decide (j < pl) || (rPval r j == 0 && rPmask r j == 0))
      && (decide (j < rl) || (rRep r j == 0 && rMap r j == 0)))

/-- Item 2: masks, values and operations. -/
def ruleWords (r : Nat) : Bool :=
  (List.range (rPlen r)).all (fun i => fld (rPmask r i) 24 8 == 0xFF && rPval r i &&& rPmask r i == rPval r i
      && ruleOp (rPval r i))
    && (List.range (rRlen r)).all (fun j => ruleOp (rRep r j))

/-- Items 3 and 4: references. -/
def ruleRefs (r : Nat) : Bool :=
  let refs := rRefs r
  refs.all (fun x =>
    let n := if refSide x then rRlen r else rPlen r
    let w := if refSide x then rRep r (refPos x) else rPmask r (refPos x)
    decide (refLo x + refWidth x ≤ 24) && decide (refPos x < n) && fld w (refLo x) (refWidth x) == 0
      && refs.all (fun y => refVar y != refVar x || refWidth y == refWidth x)
      && (!refSide x || refs.any (fun y => !refSide y && refVar y == refVar x)))

/-- No value twice. -/
def distinct : List Nat → Bool
  | [] => true
  | a :: l => !l.contains a && distinct l

/-- Item 5: MAP fields. -/
def ruleMaps (r : Nat) : Bool :=
  let js := List.range (rRlen r)
  js.all (fun j => (ruleSm (rRep r j) || rMapSm r j == 0) && (ruleIssue (rRep r j) || (rMapFq r j == 0 && rMapVm r j == 0)))
    && distinct ((js.filter (fun j => ruleSm (rRep r j))).map (rMapSm r))
    && distinct ((js.filter (fun j => ruleIssue (rRep r j))).map (rMapFq r))
    && distinct ((js.filter (fun j => ruleIssue (rRep r j))).map (rMapVm r))

/-- Item 6: ECOND and PROD need an S→M entry. -/
def ruleCond (r : Nat) : Bool :=
  (rEcond r == 0 && !rProd r) || (List.range (rPlen r)).any (fun i => ruleSm (rPval r i))

/-- Place, width and variable of the references of one word. -/
def refsOf (r : Nat) (side : Bool) (pos : Nat) : List Nat :=
  ((rRefs r).filter (fun x => refSide x == side && refPos x == pos)).map (fun x => x % 8192)

/-- Bits of a pattern word that its mask or a reference fixes. -/
def fixedBits (r i : Nat) : Nat :=
  (refsOf r false i).foldl (fun m x => setFld m (refLo x) (refWidth x) (ones (refWidth x))) (rPmask r i)

/-- Number of words before position i that satisfy p. -/
def countBefore (p : Nat → Bool) (i : Nat) : Nat := ((List.range i).filter p).length

/-- The MAP byte that takes the entries pattern word i pops, numbered in pop order. -/
def natMap (r i : Nat) : Nat :=
  if ruleIssue (rPval r i) then
    let n := countBefore (fun j => ruleIssue (rPval r j)) i
    4 * (n % 4) + 16 * (n % 4)
  else if ruleSm (rPval r i) then countBefore (fun j => ruleSm (rPval r j)) i % 4
  else 0

/-- Replacement word j is a copy of pattern word i (item 7): the template, the references and the entries agree, and
nothing of the pattern word is left free. -/
def isCopy (r j i : Nat) : Bool :=
  let a := refsOf r true j
  let b := refsOf r false i
  rRep r j == rPval r i && rMap r j == natMap r i && a.all b.contains && b.all a.contains
    && fixedBits r i == 0xFFFFFFFF

/-- The ways in which the replacement's command words copy pattern words, each in the replacement's order and no pattern word
twice. -/
def copiesOf (r : Nat) : List Nat → List Nat → List (List Nat)
  | [], used => [used.reverse]
  | j :: l, used =>
    ((List.range (rPlen r)).filter (fun i => !used.contains i && isCopy r j i)).flatMap (fun i => copiesOf r l (i :: used))

/-- No MSET or MSETQ lies between two pattern positions. -/
def noSetBetween (r i j : Nat) : Bool :=
  (List.range (rPlen r)).all (fun m => decide (m ≤ min i j) || decide (max i j ≤ m) || !ruleCmd (rPval r m)
    || ruleIssue (rPval r m))

/-- Copies keep their order; only MISSUEs of an R or F rule may change places (item 7). -/
def orderOk (r : Nat) : List Nat → Bool
  | [] => true
  | i :: l => l.all (fun j => decide (i < j) || (rClass r != 0 && ruleIssue (rPval r i) && ruleIssue (rPval r j)
      && noSetBetween r i j)) && orderOk r l

/-- Items 7 and 8: copies of command words. -/
def ruleCopies (r : Nat) : Bool :=
  (copiesOf r ((List.range (rRlen r)).filter (fun j => ruleCmd (rRep r j))) []).any (fun used => orderOk r used
    && (rClass r == 2 || (List.range (rPlen r)).all (fun i => used.contains i || !ruleCmd (rPval r i)
        || fld (rPval r i) 24 8 == 0x8B)))

/-- A record that KLOAD accepts (R315). -/
def ruleOk (r : Nat) : Bool :=
  ruleFields r && ruleWords r && ruleRefs r && ruleMaps r && ruleCond r && ruleCopies r

/-! ### KLOAD and KPERM -/

/-- The first of n records from an index on that breaks R315. -/
def badRule (rules : List Nat) (first : Nat) : Nat → Option Nat
  | 0 => none
  | n + 1 =>
    match badRule rules first n with
    | some i => some i
    | none => if ruleOk (lget rules (first + n) 0) then none else some (first + n)

/-- KLOAD (R319): a flush word. -/
def execKload (s : State) : Host.Outcome State Fault Refusal :=
  wordPre .m s (do
    let s ← s.flush
    let (e, s) ← s.pop 1
    let x := e.toNat
    let first := fld x 0 8
    let count := fld x 8 8
    let slot := fld x 16 6
    let rules := (s.image s.cur).rules
    need (fld x 22 42 == 0 && count != 0 && decide (slot + count ≤ 64) && decide (first + count ≤ rules.length))
      .illegalOperand
    match badRule rules first count with
    | some i => .error (.fault { code := .keystoneRule, aux := some i })
    | none =>
      let loaded := (List.range count).map (fun i => UpsetPlace.rules s.cur (slot + i))
      pure ((s.overwritten loaded).modSt (fun t => { t with ks := { t.ks with
        slots := t.ks.slots.mapIdx (fun i o =>
          if slot ≤ i ∧ i < slot + count then some (lget rules (first + (i - slot)) 0) else o) } })))

/-- KPERM (R321): a flush word. -/
def execKperm (f r : Nat) (s : State) : Host.Outcome State Fault Refusal :=
  wordPre .m s (do
    let s ← s.flush
    pure (s.modSt (fun t => { t with ks := { t.ks with pr := r == 1, pf := f == 1 } })))

/-! ### Rewriting -/

/-- A replacement word issues with the entries of its group (R311, R317). -/
def keyWord (w : KWord) (s : State) : Res State :=
  let f : Option Feed := some ⟨w.sm, w.fq, w.vm⟩
  match w.ins with
  | .tcfg d keep ty => tcfg d keep ty.code s
  | .tzero d => tzero d s
  | .tmov d dd a da => tmov d dd a da s
  | .tscal d dd a da => tscal d dd a da f s
  | .tadd d dd a da b db => tadd d dd a da b db s
  | .mset k x imm => mset1 k x imm s
  | .msetq k x => msetq k x f s
  | .missue k q => missue k q f w.off (some (w.kslot, w.kpos)) s
  | _ => .ok s

/-- The sequencer of M once a group is over, at a cycle. -/
def finish (x : EngSt) (now : Nat) : EngSt := { x with next := now + 1 }

/-- Entries of S→M, fq and V→M that a replacement word takes (R317). -/
def State.keyTakes (s : State) (i : Instr) : Nat × Nat × Nat :=
  match i with
  | .tscal _ _ _ _ | .msetq _ _ => (1, 0, 0)
  | .missue k _ => (0, b2n (popsFq (s.regK k)), b2n (popsVm (s.regK k)))
  | _ => (0, 0, 0)

/-- Entries of a taken group leave the queues (R317). -/
def State.keyLeave (s : State) (n : Nat × Nat × Nat) : State :=
  let s := ((s.putQueue 1 ((s.queue 1).drop n.1)).putQueue 5 ((s.queue 5).drop n.2.2)).modQs
    (fun q => { q with fq := q.fq.drop n.2.1 })
  s.modSt (fun t => { t with ks := { t.ks with
    left := (t.ks.left.1 - n.1, t.ks.left.2.1 - n.2.1, t.ks.left.2.2 - n.2.2) } })

/-- The oldest word of a taken group has issued (R310): the entries that it took leave, and after the last word those that no
word took (R317). -/
def State.keyIssued (s : State) (n : Nat × Nat × Nat) : State :=
  let s := s.keyLeave (if s.st.ks.window.length ≤ 1 then s.st.ks.left else n)
  s.modSt (fun t =>
    let rest := t.ks.window.tail
    { t with
      em := if rest.isEmpty then finish t.ks.final s.now else { t.em with next := s.now + 1 }
      ks := { t.ks with window := rest }, stall := 0, issued := true })

/-- A group is taken (R317): its replacement words wait to issue, each with the entries that it takes. A group of no words
takes one cycle, in which its entries leave. -/
def State.keyTake (s : State) (g : KGroup) : State :=
  let t := s.st
  let (sm, fl) := groupEntries g.rule (((s.queue 1).take g.sim.sm).filterMap id)
  let fq := (t.qs.fq.take g.sim.fq).filterMap id
  let vm := ((s.queue 5).take g.sim.vm).filterMap id
  let off := (g.ahead.head?.map (·.off)).getD 0
  let final := (g.ahead.getLast?.map (·.after)).getD t.em
  let ws : List KWord := g.reps.mapIdx (fun j w =>
    { ins := (match decodeWord w with
        | .ok i => i
        | .error _ => .mnop)
      off := off
      sm := lget sm (rMapSm g.rule j) 0#64, fq := lget fq (rMapFq g.rule j) 0#32, vm := lget vm (rMapVm g.rule j) 0#64
      kslot := g.slot, kpos := j })
  let s := if g.sim.sm + g.sim.fq = 0 then s else s.join .m .s
  let s := if g.sim.vm = 0 then s else s.join .m .v
  let s := (s.raise fl).modSt (fun t => { t with
    em := if ws.isEmpty then finish final s.now else t.em
    stall := 0, issued := true
    ks := { t.ks with window := ws, left := (g.sim.sm, g.sim.fq, g.sim.vm), final := final, pend := none,
                      applied := satAdd 0xFFFF t.ks.applied 1, last := g.slot, lv := true } })
  if ws.isEmpty then s.keyLeave (g.sim.sm, g.sim.fq, g.sim.vm) else s

/-- The lowest position of a replacement word that R52 reserves (R318). -/
def reservedAt (ws : List Nat) : Option Nat :=
  lfind (fun w => match decodeWord w with
    | .ok _ => false
    | .error _ => true) ws

/-- A queue of a waiting group that has run dry with its producer finished: the missing entry's taker (R318). -/
def State.keyDry (s : State) (g : KGroup) : Option Nat :=
  let taker (f : Nat → Nat) (p : Bool × Bool × Bool → Bool) (i : Nat) : Nat :=
    match lfind (fun j => p (lget g.takes j (false, false, false)) && f j == i) (List.range g.reps.length) with
    | some j => j
    | none => g.reps.length - 1
  let q1 := s.queue 1
  let q5 := s.queue 5
  let fq := s.st.qs.fq
  if q1.length < g.sim.sm ∧ s.producerDone 1 = true then some (taker (rMapSm g.rule) (·.1) q1.length)
  else if fq.length < g.sim.fq ∧ s.producerDone 6 = true then some (taker (rMapFq g.rule) (·.2.1) fq.length)
  else if q5.length < g.sim.vm ∧ s.producerDone 5 = true then some (taker (rMapVm g.rule) (·.2.2) q5.length)
  else none

/-- A fault of a group: at its first word, with the rule's slot and the position (R318). -/
def keyFault (f : FInfo) (off slot pos : Nat) : FInfo :=
  { f with engine := 2, text := off, rewritten := true, kslot := slot, kpos := pos }

/-- The next word of a group that has been taken; a bit error in what it reads is met as by any word (R115, R318). -/
def keyNext (w : KWord) (s : State) : Host.Outcome State Fault Refusal :=
  match s.regUpset w.ins with
  | some u =>
    if u.uncorr then
      .next (takeFault (keyFault { code := .memoryUe, cause := 1, precise := false } w.off w.kslot w.kpos) (s.dropUpset u))
    else .next ((s.corrected u).modCore s.cur (fun c => c.countCorr u.place))
  | none =>
    match keyWord w s with
    | .ok s' => .next ((s'.keyIssued (s.keyTakes w.ins)).overwritten (s.overwrites w.ins))
    | .error (.fault f) => .next (takeFault (keyFault f w.off w.kslot w.kpos) s)
    | .error x => .next (x.state .m s)

/-- A bit error in a loaded slot of the rule store, which Keystone reads (R387). -/
def State.ruleUpset (s : State) : Option Upset :=
  if s.upsets.isEmpty then none else
  s.upsets.find? (fun u => match u.place with
    | .rules k i => k == s.cur && (lget s.st.ks.slots i none).isSome
    | _ => false)

/-- A decision carried out at the oldest word: the group is taken once it may pass its words (R310), or waits. -/
def keyAct (s : State) : Host.Outcome State Fault Refusal :=
  match s.keyDecide with
  | .none => .next (s.modSt (fun t => { t with ks := { t.ks with pend := none } }))
  | .take g =>
    let final := (g.ahead.getLast?.map (·.after)).getD s.st.em
    let off := (g.ahead.head?.map (·.off)).getD 0
    if (match s.slipLimit s.cur .m with
        | some n => decide (n < final.walk)
        | none => false) then .next s
    else
      match reservedAt g.reps with
      | some j => .next (takeFault (keyFault { code := .keystoneRule } off g.slot j) s)
      | none => .next (s.keyTake g)
  | .wait g =>
    match s.keyDry g with
    | some j =>
      .next (takeFault (keyFault { code := .queueUnderflow } ((g.ahead.head?.map (·.off)).getD 0) g.slot j) s)
    | none => .next (s.modSt (fun t => { t with ks := { t.ks with pend := some g.slot } }))

/-- KEYSTONE_REWRITE (R311, R317): Keystone's M issue cycle on a core. -/
def execKeystoneRewrite (core : Nat) (s : State) : Host.Outcome State Fault Refusal :=
  let s := { s with cur := core }
  let t := s.st
  if s.mayAct core .m = false ∨ 128 ≤ core then .next s else
  match t.ks.window with
  | w :: _ => keyNext w s
  | [] =>
    if t.beyond .m ((ownFrom (s.text core) .m t.em.pc).getD t.em.pc) = true then .next s else
    match if t.ks.active then s.ruleUpset else none with
    | some u => s.consume .m u
    | none => keyAct s

end Sys2Proof.Machine
end

