-- ==== Sys2Proof/Machine/XlateEvents.lean ====
section
/-! DEFINITION. Page walks, invalidations, page migration, and the records of translation contexts
(spec/19_address_translation.md). -/

namespace Sys2Proof.Machine

/-- Limits of Table 19.1. -/
def State.xidOk (s : State) (r : XidRec) : Bool := r.group < 64 && r.root % 4096 == 0 && (!r.valid || s.inPool r.root)

/-- XID_RECORD_WRITE (R403). -/
def execXidRecordWrite (xid : Nat) (xrec : XidRec) (s : State) : Host.Outcome State Fault Refusal :=
  if xid < 4096 ∧ s.xidOk xrec = true then .next { s with xlt := { s.xlt with xids := aset s.xlt.xids xid xrec } }
  else .next s

/-- A stack's table pool and sharer directory, 4 KiB to 4 GiB of the stack's own memory (R406); one that breaks the
limits changes nothing. -/
def State.setPool (s : State) (st base size dir : Nat) : State :=
  if st < 8 ∧ 4096 ≤ size ∧ size ≤ 2 ^ 32 ∧ size % 4096 = 0 ∧ base % 4096 = 0 ∧ st * stackBytes ≤ base
      ∧ base + size ≤ (st + 1) * stackBytes ∧ dir % 8 = 0 ∧ st * stackBytes ≤ dir
      ∧ dir + size / 4096 * 8 ≤ (st + 1) * stackBytes then
    s.modStack st (fun k => { k with poolBase := base, poolSize := size, dirBase := dir })
  else s

/-! ### Walks -/

/-- The strand that asked for a walk still runs under its XID. -/
def State.asker (s : State) (r : WalkReq) : Bool := (s.strand r.core).live && s.xidOf r.core == r.xid

/-- A walk that consumed an uncorrectable entry (R410, R414): the strands whose requests it serves fault with
TRANSLATION_POISON, and the contexts that share the table page are fenced. -/
def State.walkPoison (s : State) (st level : Nat) (r : WalkReq) (page : Nat) : State :=
  let rs := (s.stack st).missq.filter (WalkReq.joins level r.xid r.va)
  let s := s.modStack st (fun k => { k with missq := k.missq.filter (fun x => !x.joins level r.xid r.va) })
  match rs.filter s.asker with
  | [] => s.poisonTable page 1024
  | l => l.foldl (fun s x =>
      if s.asker x then
        takeFault { code := .translationPoison, precise := false, engine := engNo x.eng, text := x.text, addr := page }
          { s with cur := x.core }
      else s) s

/-- PAGE_WALK (R410): a walker of a stack domain serves the oldest request, which every request for the same entry
joins. -/
def execPageWalk (stack walker : Nat) (s : State) : Host.Outcome State Fault Refusal :=
  if 8 ≤ walker then .next s else
  let k := s.stack stack
  match k.missq with
  | [] => .next s
  | r :: rest =>
    if s.asker r = false then .next (s.modStack stack (fun k => { k with missq := rest })) else
    match s.walkWith k.walkCache walker r.xid r.va with
    | .hit e => .next (s.walkHit stack walker r.xid r.va e)
    | .fault level => .next (s.walkFaults stack level r)
    | .poison page level => .next (s.walkPoison stack level r page)

/-! ### Invalidation -/

/-- An entry matches an invalidation (R411): page of an XID, all of an XID, or all. -/
def invCovers (mode xid page x vpage shift : Nat) : Bool :=
  match mode with
  | 0 => x == xid && vpage == page * 4096 / 2 ^ shift
  | 1 => x == xid
  | _ => true

/-- A cached translation matches an invalidation. -/
def invMatch (mode xid page : Nat) (e : TlbEntry) : Bool := invCovers mode xid page e.xid e.vpage e.shift

/-- A cached pointer matches an invalidation. -/
def invMatchPtr (mode xid page : Nat) (p : WalkPtr) : Bool :=
  match mode with
  | 0 => p.xid == xid && p.pre == page * 4096 / 2 ^ (12 + 9 * p.level)
  | 1 => p.xid == xid
  | _ => true

/-- Matching entries leave every TLB and walk cache (R411). -/
def State.invRemove (s : State) (mode xid page : Nat) : State :=
  { s with
    cores := s.cores.map (fun (c : Core) => { c with tlb := c.tlb.filter (fun e => !invMatch mode xid page e) })
    clusters := s.clusters.map (fun (c : Cluster) => { c with tlb := c.tlb.filter (fun e => !invMatch mode xid page e) })
    doms := s.doms.map (fun (k : Stack) =>
      { k with walkCache := k.walkCache.filter (fun p => !invMatchPtr mode xid page p) }) }

/-- GO (R411): ignored while an invalidation is in progress and with the reserved mode. -/
def State.invStart (s : State) (mode xid page : Nat) : State :=
  if s.xlt.busy = true ∨ 2 < mode then s else
  let s := s.invRemove mode xid page
  { s with xlt := { s.xlt with busy := true, run := (mode, xid, page) } }

/-- A write of XLT_INVC (R415): MODE and XID take their values, and GO starts an invalidation of the page in XLT_INVA. -/
def State.putInvc (s : State) (go : Bool) (mode xid : Nat) : State :=
  let s := { s with xlt := { s.xlt with invMode := mode, invXid := xid } }
  if go then s.invStart mode xid (s.xlt.inva / 4096) else s

/-- A write of XLT_INVA (R415). -/
def State.putInva (s : State) (page : Nat) : State := { s with xlt := { s.xlt with inva := page * 4096 } }

/-- INVAL_PAGE (R411). -/
def execInvalPage (xid page : Nat) (s : State) : Host.Outcome State Fault Refusal :=
  .next ((s.putInva (page % 2 ^ 36)).putInvc true 0 (xid % 4096))
/-- INVAL_XID (R411). -/
def execInvalXid (xid : Nat) (s : State) : Host.Outcome State Fault Refusal := .next (s.putInvc true 1 (xid % 4096))
/-- INVAL_ALL (R411). -/
def execInvalAll (s : State) : Host.Outcome State Fault Refusal := .next (s.putInvc true 2 s.xlt.invXid)

/-- A strand holds a store that has not performed and went through a translation that the invalidation matches (R411). -/
def State.holdsAccess (s : State) (k : Nat) : Bool :=
  let (mode, xid, page) := s.xlt.run
  (s.strand k).psts.any (fun p => p.via.any (fun v => invCovers mode xid page (s.xidOf k) v.1 v.2))

/-- INVALIDATION_DONE (R411): once every access that may have used a removed entry has performed. -/
def execInvalidationDone (s : State) : Host.Outcome State Fault Refusal :=
  if s.xlt.busy = true ∧ (List.range 128).any s.holdsAccess = false then
    .next { s with xlt := { s.xlt with busy := false } }
  else .next s

/-! ### Migration of a compressed page -/

/-- The leaf that maps an address, with the addresses of its level-0 entries: 16 for a 64 KiB page (R405). -/
def State.leafOf (s : State) (xid va : Nat) : Option (TlbEntry × List Nat) :=
  match s.walk xid va with
  | .hit e =>
    let lv := if e.shift = 30 then 2 else if e.shift = 21 then 1 else 0
    let a := e.tables.headD 0
    let i := fld va (12 + 9 * lv) 9
    some (e, if e.shift = 16 then (List.range 16).map (fun j => a + 8 * (i / 16 * 16 + j)) else [a + 8 * i])
  | _ => none

/-- A new value for a leaf's entries, at the home. -/
def State.putLeaf (s : State) (as : List Nat) (v : Nat) : State :=
  as.foldl (fun s a => s.homePuts a (bytesLE 8 v)) s

/-- PAGE_MIGRATION (R413): steps 1 to 4 of system software, each once the invalidation before it is done. -/
def execPageMigration (xid va frame phase : Nat) (s : State) : Host.Outcome State Fault Refusal :=
  match s.leafOf xid va with
  | none => .next s
  | some (e, as) =>
    if e.c = false ∨ s.xlt.busy = true ∨ frame % 2 ^ e.shift ≠ 0 ∨ deviceEnd ≤ frame then .next s else
    let old := mnat s.home (as.headD 0) 8
    match phase with
    | 1 =>
      if e.mig then .next s
      else .next (((s.putLeaf as (setFld old 4 1 1)).putInva (va / 4096 % 2 ^ 36)).putInvc true 0 xid)
    | 2 =>
      if e.mig = false then .next s
      else .next (s.homeWrite frame (mgets s.home e.frame (2 ^ e.shift)))
    | 3 =>
      if e.mig = false then .next s
      else .next (((s.putLeaf as (setFld (setFld old 12 40 (frame / 4096)) 4 1 0)).putInva
        (va / 4096 % 2 ^ 36)).putInvc true 0 xid)
    | _ => .next s

end Sys2Proof.Machine
end

