-- ==== Sys2Proof/Machine/SysReg.lean ====
section
/-! DEFINITION. System registers: SYSRD, SYSWR, the writes that have a behaviour of their own, and the management path
(spec/06 R134 and the register tables of the chapters). -/

namespace Sys2Proof.Machine

/-! ### What SYSRD reads -/

/-- A sum of fields, each a value and its lowest bit. -/
def fields (l : List (Nat × Nat)) : Nat := (l.map (fun p => p.1 * 2 ^ p.2)).sum

/-- A core is a designated Parapet core. -/
def State.isParapet (s : State) (k : Nat) : Bool := s.err.designated && (s.err.coreA == k || s.err.coreB == k)

/-- SEQ_PLACE (Table 1.3). -/
def State.seqPlace (s : State) (k : Nat) : Nat :=
  let n := clusterOf k
  fields [(b2n (s.isParapet k), 31), (b2n (s.core k).inPar, 30), (stackOf n, 21), (dieOf n, 19), (rowOf n, 17),
    (colOf n, 14), (n, 9), (k % 4, 7), (k, 0)]

/-- Slip of the acting strand (R81): greatest less least walk count of its walking sequencers. -/
def State.slipNow (s : State) : Nat :=
  match (engines.filter (s.walking s.cur)).map (fun e => (s.st.eng e).walk) with
  | [] => 0
  | w :: l => l.foldl max w - l.foldl min w

/-- Entries of the acting strand's queue i, markers included. -/
def State.qLen (s : State) (i : Nat) : Nat := (s.queue i).length

/-- SEQ_QSTAT (Table 7.4). -/
def State.seqQstat (s : State) : Nat :=
  fields ((List.range 6).map (fun i => (s.qLen i, 5 * i)) ++ [(s.st.qs.fq.length, 30)]
    ++ (List.range 4).map (fun n => ((lget s.st.qs.port n {}).held, 36 + 3 * n)))

/-- SEQ_TILES.PDEC (Table 10.6). More than 255 decrements, which TRET alone can record, are a free value of the field
(assumption 120). -/
def State.pdec (s : State) : Nat :=
  if s.st.decs.length ≤ 255 then s.st.decs.length else Config.freeBits (s.free * 2 ^ 20) % 256

/-- SEQ_ registers (indices 0x000 to 0x0FF). -/
def State.seqRead (s : State) (idx : Nat) : Nat :=
  let t := s.st
  let c := s.core s.cur
  if idx = 0x001 then s.seqPlace s.cur
  else if idx = 0x002 then fields [(s.slipNow % 2 ^ 13, 32), (t.slipw, 0)]
  else if idx = 0x003 then
    fields [(t.regs.pred.length, 20), ((s.oq .c).length, 15), ((s.oq .m).length, 10), ((s.oq .v).length, 5),
      ((s.oq .s).length, 0)]
  else if idx = 0x004 then s.seqQstat
  else if idx = 0x010 then t.flags.toNat
  else if idx = 0x011 then fields [(c.kcorr, 48), (c.tcorr, 32), (c.vcorr, 16), (c.scorr, 0)]
  else if idx = 0x012 then
    fields ((t.regs.e.toNat, 32) :: (List.range 8).map (fun j => (b2n (t.tokCount j != 0), j)))
  else if idx = 0x020 then fields ((List.range 8).map (fun n => (s.tileTy n, 8 * n)))
  else if 0x030 ≤ idx ∧ idx ≤ 0x035 then lget t.qs.src (idx - 0x030) 15
  else if 0x038 ≤ idx ∧ idx ≤ 0x03D then lget t.qs.snk (idx - 0x038) 15
  else if idx = 0x040 then fields [((s.cluster (clusterOf s.cur)).carve, 8), (t.allot / 4096, 0)]
  else if idx = 0x041 then t.wtimeout
  else if idx = 0x042 then fields [(s.pdec, 16), (t.acc.length, 0)]
  else 0

/-- The M words that the window may hold at most: up to 16 ahead, and none beyond the delay slots of an MBQ (R310, R312). -/
def mostHeld : List Nat → Nat
  | [] => 0
  | w :: l => if fld w 24 8 = 0x8F then 1 + min 2 l.length else 1 + mostHeld l

/-- The words that Keystone's window holds (R310, R312): a number that the spec leaves open (assumption 31) between the words
of a group that waits and those ahead. -/
def State.keyWin (s : State) : Nat :=
  let k := s.st.ks
  if k.active = false ∨ s.st.ended = true then k.window.length else
  let most := mostHeld ((aheadFrom (s.text s.cur) s.now 16 s.st.em).map (·.word))
  let least := match k.pend with
    | none => 0
    | some i => min most (((lget k.slots i none).map rPlen).getD 0)
  least + Config.freeBits s.free % (most + 1 - least)

/-- KEY_ registers (Table 15.5). -/
def State.keyRead (s : State) (idx : Nat) : Nat :=
  let k := s.st.ks
  let loaded := (k.slots.filter (·.isSome)).length
  if idx = 0x100 then b2n (s.core s.cur).keyEn
  else if idx = 0x101 then
    fields [(k.applied, 32), (k.last, 26), (b2n k.lv, 25), (b2n k.pf, 24), (b2n k.pr, 23), (loaded, 16), (s.keyWin, 0)]
  else if idx = 0x102 then fields (k.slots.mapIdx (fun i x => (b2n x.isSome, i)))
  else 0

/-- Number of a lease state. -/
def LeaseSt.num : LeaseSt → Nat
  | .none => 0
  | .waiting => 1
  | .held => 2
  | .lapsed => 3

/-- GIR_ registers (Tables 13.2 and 14.3). -/
def State.girRead (s : State) (idx : Nat) : Nat :=
  let g := s.girder (clusterOf s.cur)
  let t := s.st
  if idx = 0x200 then g.leaseLen
  else if idx = 0x201 then g.leaseCyc
  else if idx = 0x202 then g.migWait
  else if idx = 0x203 then
    fields [(g.replays, 32), (b2n g.holder.isSome, 22), (g.holder.getD 0 % 4, 20), (g.used, 15),
      (b2n (g.replayable s.cur t.winNo t.window t.foul), 14), (min 16 t.window.length, 9), (g.lcnt, 2), (t.lease.num, 0)]
  else if idx = 0x204 then
    fields [(b2n t.chain.prog.isSome, 15), (b2n t.chain.opened, 14),
      ((t.chain.prog.map cpCores).getD 0, 8), (if t.chain.opened then t.chain.nxt else 0, 0)]
  else if 0x208 ≤ idx ∧ idx ≤ 0x20B then
    fields ((List.range 4).map (fun m => ((lget t.regs.bd (4 * (idx - 0x208) + m) 0#16).toNat, 16 * m)))
  else 0

/-- CMU_ registers of a stream (Table 16.6). -/
def Stream.cmuRead (x : Stream) (idx : Nat) : Nat :=
  let n := x.desc.layers.length
  let ly (i : Nat) (f : LayerDesc → Nat) : Nat := ((x.desc.layers[i]?).map f).getD 0
  if 0x400 ≤ idx ∧ idx < 0x440 then (if idx - 0x400 < n then lget x.thresh (idx - 0x400) 0 else 0)
  else if 0x440 ≤ idx ∧ idx < 0x480 then (if idx - 0x440 < n then lget x.refresh (idx - 0x440) 0 else 0)
  else if 0x480 ≤ idx ∧ idx < 0x4C0 then
    ly (idx - 0x480) (fun d => fields [(d.rpt, 48), (d.halo, 40), (d.s, 32), (d.h, 16), (d.w, 0)])
  else if 0x4C0 ≤ idx ∧ idx < 0x4C8 then lget x.guards (idx - 0x4C0) 0
  else if idx = 0x4C8 then fields [(x.frame % 2 ^ 32, 32), (x.stray, 16), (n, 0)]
  else 0

/-- The stream of a context. -/
def State.streamOf (s : State) (c : Nat) : Option (Nat × Stream) :=
  match (s.ctx c).stream with
  | none => none
  | some i => (s.stream i).map (fun x => (i, x))

/-- Records in a context's memory queue (R363). -/
def State.spilledIn (s : State) (c : Nat) : Nat := (s.sched.recs.filter (fun r => r.spilled && r.ctx == c)).length

/-- Free on-chip records (R363): a task keeps its record until it ends; a pinned service has none (R364, assumption 60). -/
def State.freeRecs (s : State) : Nat :=
  4096 - ((s.sched.recs.filter (fun r => !r.spilled)).length
    + (s.sched.gangs.filter (fun g => !g.task.service)).length)

/-- SCH_ registers (Table 17.3). -/
def State.schRead (s : State) (idx : Nat) : Nat :=
  let t := s.st
  let c := s.ctx t.task.ctx
  let g := s.gang t.gang
  if idx = 0x600 then
    fields [(t.task.disc % 256, 32), (b2n (decide (4 ≤ t.task.disc)), 31), (b2n (t.commit == .done), 30), (t.task.src, 28),
      (t.task.n, 22), (t.member, 16), (t.task.stage, 10), (t.task.ctx, 0)]
  else if idx = 0x601 then c.weight
  else if idx = 0x602 then fields [((g.map (·.level)).getD 0, 10), (c.ceil, 5), (c.base, 0)]
  else if idx = 0x603 then s.sched.age
  else if idx = 0x604 then s.sched.quant
  else if idx = 0x605 then fields [(s.sched.drop, 48), (s.spilledIn t.task.ctx, 16), (s.freeRecs, 0)]
  else if idx = 0x606 then fields [(c.dcnt, 16), (c.dbase, 0)]
  else 0

/-- ERR_ registers (Table 18.8). DESIGN CHOICE (assumption 136): action bits read 0 (R6). -/
def State.errRead (s : State) (idx : Nat) : Nat :=
  let e := s.err
  let c := s.core s.cur
  if idx = 0x700 then e.wdog
  else if idx = 0x701 then
    fields [((s.stack (stackOf (clusterOf s.cur))).hbmCorr, 48), (c.cacheCorr, 32), (c.spadCorr, 16)]
  else if idx = 0x710 then fields [(e.coreB, 32), (e.img / 128, 7), (e.coreA, 0)]
  else if idx = 0x711 then fields [(e.dead, 32), (b2n e.arm, 0)]
  else if idx = 0x712 then e.pstat
  else 0

/-- WST_ registers (Tables 11.3 and 11.4). -/
def State.wstRead (s : State) (idx : Nat) : Nat :=
  let r := (s.die (dieOf (clusterOf s.cur))).ready
  if idx = 0x800 then
    fields [(s.calTime / 147200 % 2 ^ 32, 32), (s.calTime % 1150, 8), (s.calTime % 147200 / 1150, 0)]
  else if idx = 0x801 then fld r 0 64
  else if idx = 0x802 then fld r 64 16
  else 0

/-- XLT_ registers (Table 19.5). DESIGN CHOICE (assumption 136): the action bit XLT_INVC.GO reads 0 (R6). -/
def State.xltRead (s : State) (idx : Nat) : Nat :=
  let xid := s.xidOf s.cur
  let r := s.xidRec xid
  if idx = 0x900 then fields [(if r.valid then r.group else 0, 12), (xid, 0)]
  else if idx = 0x901 then
    fields [((s.stack (stackOf (clusterOf s.cur))).missq.length, 32), (s.st.tlbMiss, 0)]
  else if idx = 0x910 then s.xlt.inva
  else if idx = 0x911 then fields [(b2n s.xlt.busy, 62), (s.xlt.invMode, 16), (s.xlt.invXid, 0)]
  else 0

/-- Identification and timers (Table 21.2). -/
def State.idRead (s : State) (idx : Nat) : Nat :=
  if idx = 0xF00 then fields [(0x54414D50, 32), (0x0910, 16), (Config.idStep.toNat, 0)]
  else if idx = 0xF01 then Config.shake256 (Config.publicKey s.power.key) % 2 ^ 64
  else if idx = 0xF02 then s.devTime
  else if idx = 0xF03 then s.now
  else 0

/-- The value of a system register for the acting strand; a reserved index reads 0 (R134). -/
def State.sysRead (s : State) (idx : Nat) : Nat :=
  match idx / 256 with
  | 0 => s.seqRead idx
  | 1 => s.keyRead idx
  | 2 => s.girRead idx
  | 3 =>
    if idx = 0x300 then
      fields ((s.st.codeTab.mapIdx (fun i x => (b2n x.isSome, 16 + i)))
        ++ [((s.core s.cur).stq.length, 8), ((s.core s.cur).ldq.length, 0)])
    else 0
  | 4 => match s.streamOf s.st.task.ctx with
    | some (_, x) => x.cmuRead idx
    | none => 0
  | 6 => s.schRead idx
  | 7 => s.errRead idx
  | 8 => s.wstRead idx
  | 9 => s.xltRead idx
  | 15 => s.idRead idx
  | _ => 0

/-- SYSRD (R134): interlocked. -/
def execSysrd (d idx : Nat) (s : State) : Host.Outcome State Fault Refusal :=
  word .s s (.ok (s.putS d (BitVec.ofNat 64 (s.sysRead idx))))

/-! ### Writes with a behaviour of their own -/

/-- SEQ_SLIPW.WORDS as written (R82). -/
def slipWords (v : Nat) : Nat := max 16 (min 4096 (v % 2 ^ 13))

/-- A write of SEQ_SLIPW on a core: the bound counts from the cycle after (R82). -/
def State.putSlipw (s : State) (k v : Nat) : State :=
  s.modStrand k (fun t => { t with slipw := slipWords v, slipOld := t.bound s.now, slipFrom := s.now + 1 })

/-- A write of KEY_CTL.EN on a core (R323): the strand takes it at its next flush word. -/
def State.putKeyCtl (s : State) (k v : Nat) : State := s.modCore k (fun c => { c with keyEn := bit v 0 })

/-- A CMU register index that a task may write (Table 16.6). -/
def cmuDeferred (idx : Nat) : Bool := decide (0x400 ≤ idx) && decide (idx < 0x480)

/-- A task's write of CMU_THRESHn or CMU_REFRESHn is held (R343, R344); in the post-commit region there is none (R370). -/
def State.holdCmu (s : State) (k idx v : Nat) : State :=
  if cmuDeferred idx && ((s.ctx (s.strand k).task.ctx).stream).isSome then
    s.modStrand k (fun t => t.hold s.free (.cmu idx v))
  else s

/-- A CMU register as a write leaves it (Table 16.6). -/
def Stream.cmuWrite (x : Stream) (idx v : Nat) : Stream :=
  let n := x.desc.layers.length
  if 0x400 ≤ idx ∧ idx < 0x440 then
    (if idx - 0x400 < n then { x with thresh := x.thresh.set (idx - 0x400) (v % 2 ^ 16) } else x)
  else if 0x440 ≤ idx ∧ idx < 0x480 then
    (if idx - 0x440 < n ∧ v % 256 ≠ 0 then { x with refresh := x.refresh.set (idx - 0x440) (v % 256) } else x)
  else if 0x4C0 ≤ idx ∧ idx < 0x4C8 then
    { x with guards := x.guards.set (idx - 0x4C0) (fld v 0 48 + 2 ^ 63 * fld v 63 1) }
  else x

/-- LATCH cleared, unless a Parapet task runs (R396, Table 18.8). -/
def State.parapetClear (s : State) : State :=
  if s.err.run then s else s.modErr (fun e => { e with latch := false })

/-- The Parapet image is resident on a core. -/
def State.parResident (s : State) (k : Nat) : Bool := (s.core k).imem.any (fun i => i.handle == s.err.img)

/-- Arming (R394). -/
def State.parapetArmed (s : State) : State :=
  let a := s.err.coreA
  let b := s.err.coreB
  if s.err.designated && !(s.core a).fenced && !(s.core b).fenced && s.parResident a && s.parResident b then
    (s.modErr (fun e => { e with arm := true, latch := false, ha := true, hb := true })).parapetTrigger 0
  else s

/-- Disarming (R394). -/
def State.parapetDisarmed (s : State) : State :=
  (s.modErr (fun e => { e with arm := false })).parapetKill.modErr (fun e =>
    { e with ha := true, hb := true, latch := true, pend := false })

/-- A write of ERR_PCTL (R394, Table 18.8): DEAD, then CLR, then the change of ARM. Before step 7 of the boot sequence there is
no Parapet to arm (R431). -/
def State.putPctl (s : State) (v : Nat) : State :=
  if s.power.ready = false then s else
  let s := if 10 ≤ fld v 32 32 then s.modErr (fun e => { e with dead := fld v 32 32 }) else s
  let s := if bit v 1 then s.parapetClear else s
  if bit v 0 = true ∧ s.err.arm = false then s.parapetArmed
  else if bit v 0 = false ∧ s.err.arm = true then s.parapetDisarmed
  else s

/-! ### Resident images -/

/-- An image fits beside resident ones (R365); the Parapet image's registers count apart (R391). -/
def fitsWith (par : Nat) (i : Image) (l : List Image) : Bool :=
  decide (l.length < 4) && decide ((l.map (fun y => 4 * y.text.length)).sum + 4 * i.text.length ≤ 131072)
    && decide ((((l ++ [i]).filter (fun y => y.handle != par)).map (·.vregs)).sum ≤ 64)

/-- The resident images left once an image fits (R365): least recently started go first, those of a list stay. -/
def evictFor (par : Nat) (stay : List Nat) (i : Image) (front : List Image) : List Image → List Image
  | [] => front
  | x :: xs =>
    if fitsWith par i (front ++ x :: xs) then front ++ x :: xs
    else if stay.contains x.handle then evictFor par stay i (front ++ [x]) xs
    else evictFor par stay i front xs

/-- An image becomes the most recently started one of a core (R365), beside the Parapet image and the image of a strand
that runs there. Loading rewrites instruction memory, and its bit errors are gone (R387). -/
def State.residentOn (s : State) (k par : Nat) (i : Image) : State :=
  let c := s.core k
  if c.imem.any (fun x => x.handle == i.handle) then
    s.modCore k (fun c => { c with imem := c.imem.filter (fun x => x.handle != i.handle) ++ [i] })
  else
    let stay := par :: (if c.ord.live then [c.ord.image] else [])
    { s.modCore k (fun c => { c with imem := evictFor par stay i [] c.imem ++ [i] }) with
      upsets := s.upsets.filter (fun u => match u.place with
        | .imem x _ => x != k
        | _ => true) }

/-- The Parapet image made resident on a core, which is never gated again (R365, R391). DESIGN CHOICE (assumption 130): it is
made resident even where the image of a strand that runs there leaves no room for it. -/
def State.parLoad (s : State) (k : Nat) (i : Image) : State :=
  ((s.wakeCluster (clusterOf k)).wakeCore k).residentOn k i.handle i

/-- Girders of the clusters of two cores start commands without delay again (R437). -/
def State.unthrottle (s : State) (a b : Nat) : State :=
  (s.modGirder (clusterOf a) (fun g => { g with k := 1 })).modGirder (clusterOf b) (fun g => { g with k := 1 })

/-- A write of ERR_PDES (R14, R391, R400), which comes to nothing before step 7 of the boot sequence (R431). -/
def State.putPdes (s : State) (v : Nat) : State :=
  let a := fld v 0 7
  let b := fld v 32 7
  let h := fld v 7 25 * 128
  match s.sched.images.find? (fun i => i.handle == h) with
  | none => s
  | some i =>
    if s.armed = true ∨ clusterOf a = clusterOf b ∨ s.power.ready = false then s
    else (((s.parLoad a i).parLoad b i).unthrottle a b).modErr (fun e => { e with coreA := a, coreB := b, img := h, designated := true })

/-- Two paired writes of ERR_PHALT compared (R396): bits 63:1 are reserved and take no part (R6). -/
def State.haltPair (s : State) (x y : PWrite) : State :=
  if bit x.val 0 = bit y.val 0 ∧ x.sig = y.sig then
    if s.err.latch then s else s.modErr (fun e => { e with ha := bit x.val 0, hb := bit x.val 0 })
  else s.latchOutputs

/-- A Parapet core's write of ERR_PHALT at the comparator (R396): the Nth write of one core meets the Nth of the
other, and a write that comes more than 1 µs after its partner counts as missing first. -/
def State.haltWrite (s : State) (k v : Nat) : State :=
  let w : PWrite := { fromA := k == s.err.coreA, val := v, sig := (s.core k).crc, since := s.now }
  match s.err.unpaired.find? (fun x => x.fromA != w.fromA) with
  | none => s.modErr (fun e => { e with unpaired := e.unpaired ++ [w] })
  | some x =>
    let s := if x.counted = false ∧ x.since + 2300 < s.now then s.latchOutputs else s
    (s.modErr (fun e => { e with unpaired := e.unpaired.erase x })).haltPair x w

/-- Correction counters of a core zeroed (Table 18.8). -/
def State.clearCorr (s : State) (k : Nat) : State :=
  let s := s.modStack (stackOf (clusterOf k)) (fun x => { x with hbmCorr := 0 })
  s.modCore k (fun c => { c with spadCorr := 0, cacheCorr := 0, kcorr := 0, tcorr := 0, vcorr := 0, scorr := 0 })

/-- SLIPW_WRITE (R82). -/
def execSlipwWrite (core val : Nat) (s : State) : Host.Outcome State Fault Refusal := .next (s.putSlipw core val)
/-- KEY_CTL_WRITE (R323). -/
def execKeyCtlWrite (core val : Nat) (s : State) : Host.Outcome State Fault Refusal := .next (s.putKeyCtl core val)
/-- CMU_DEFERRED_WRITE (R344). -/
def execCmuDeferredWrite (core idx val : Nat) (s : State) : Host.Outcome State Fault Refusal :=
  if (s.strand core).live = true ∧ (s.strand core).commit ≠ .done then .next (s.holdCmu core idx val) else .next s
/-- PARAPET_FIRE (R392, R433). -/
def execParapetFire (val : Nat) (s : State) : Host.Outcome State Fault Refusal :=
  if s.power.ready = false then .next (s.beforeReady (.event (.parapetFire val)))
  else if bit val 0 then .next (s.parapetTrigger 0) else .next s
/-- PARAPET_ARM (R394): a write of ERR_PCTL with ARM 1. -/
def execParapetArm (val : Nat) (s : State) : Host.Outcome State Fault Refusal :=
  if bit val 0 then .next (s.putPctl val) else .next s
/-- PARAPET_DISARM (R394): a write of ERR_PCTL with ARM 0. -/
def execParapetDisarm (val : Nat) (s : State) : Host.Outcome State Fault Refusal :=
  if bit val 0 then .next s else .next (s.putPctl val)
/-- PARAPET_CLR (R396). -/
def execParapetClr (s : State) : Host.Outcome State Fault Refusal := .next s.parapetClear
/-- PARAPET_DESIGNATE (R400). -/
def execParapetDesignate (val : Nat) (s : State) : Host.Outcome State Fault Refusal := .next (s.putPdes val)
/-- HALT_REQUEST (R396): only a Parapet context reaches the comparator. -/
def execHaltRequest (core val : Nat) (s : State) : Host.Outcome State Fault Refusal :=
  if (s.core core).inPar then .next (s.haltWrite core val) else .next s
/-- ERR_CORR_CLR (R399). -/
def execErrCorrClr (core : Nat) (s : State) : Host.Outcome State Fault Refusal := .next (s.clearCorr core)

/-! ### SYSWR -/

/-- Registers that a task may not write (R134, R275, R323, R343, R399, R415). -/
def sysPrivileged (idx : Nat) : Bool :=
  [0x100, 0x200, 0x201, 0x202, 0x700, 0x701, 0x710, 0x711, 0x713, 0x910, 0x911].contains idx
    || (decide (0x4C0 ≤ idx) && decide (idx < 0x4C8))

/-- Queue type codes (Table 7.2). -/
def queueCode (c : Nat) : Bool := [0, 1, 2, 3, 4, 5, 8, 9, 10, 15].contains c

/-- A write of a register that a task may write, as it takes effect (R134). -/
def State.sysWrite (s : State) (idx v : Nat) : State :=
  if idx = 0x010 then s.clearFlags v
  else if 0x030 ≤ idx ∧ idx ≤ 0x035 then
    (if queueCode (v % 16) then s.modQs (fun q => { q with src := q.src.set (idx - 0x030) (v % 16) }) else s)
  else if 0x038 ≤ idx ∧ idx ≤ 0x03D then
    (if queueCode (v % 16) then s.modQs (fun q => { q with snk := q.snk.set (idx - 0x038) (v % 16) }) else s)
  else if idx = 0x041 then s.modSt (fun t => { t with wtimeout := v % 2 ^ 32 })
  else if cmuDeferred idx then s.holdCmu s.cur idx v
  else if idx = 0x714 then s.haltWrite s.cur v
  else s

/-- SYSWR (R134): the write takes effect in the next cycle; of SEQ_SLIPW, the bound does (R82). -/
def execSyswr (a idx : Nat) (s : State) : Host.Outcome State Fault Refusal :=
  wordPre .s s (
    if sysPrivileged idx = true ∨ (idx = 0x714 ∧ (s.core s.cur).inPar = false) then raiseF .privilege
    else if idx = 0x002 then .ok (s.putSlipw s.cur (s.rdS a).toNat)
    else .ok (s.modSt (fun t => { t with sysq := t.sysq ++ [(idx, (s.rdS a).toNat)] })))

/-- The writes that a core's SYSWRs of the last cycle made take effect, in their order (R134). -/
def State.sysLandOn (s : State) (k : Nat) : State :=
  let ws := (s.strand k).sysq
  if ws.isEmpty then s else
  let t := { s with cur := k }.modSt (fun t => { t with sysq := [] })
  { ws.foldl (fun s w => s.sysWrite w.1 w.2) t with cur := s.cur }

/-- The same on every core. -/
def State.sysLand (s : State) : State := (List.range 128).foldl State.sysLandOn s

/-- n cycles pass; what SYSWR wrote takes effect at the start of the first (R134), and writes that came before READY have
missed it (R433). -/
def State.advance (s : State) (n : Nat) : State :=
  let s := if n = 0 then s else s.earlyOut
  (if n = 0 ∨ s.cores.all (fun c => c.strand.sysq.isEmpty) = true then s.tick n
    else ((s.tick 1).sysLand).tick (n - 1)).heat

/-! ### The management path -/

/-- MANAGEMENT_PATH_WRITE (R275, R343, R377, R399, R411, R415): unit is the core, cluster or stream that has the
register; a value outside a field's limits leaves it. -/
def execManagementPathWrite (unit idx val : Nat) (s : State) : Host.Outcome State Fault Refusal :=
  .next (
    if idx = 0x100 then s.putKeyCtl unit val
    else if idx = 0x200 then
      (if 1 ≤ val % 128 ∧ val % 128 ≤ 64 then s.modGirder unit (fun g => { g with leaseLen := val % 128 }) else s)
    else if idx = 0x201 then
      (if val % 2 ^ 32 = 0 ∨ 1024 ≤ val % 2 ^ 32 then s.modGirder unit (fun g => { g with leaseCyc := val % 2 ^ 32 })
        else s)
    else if idx = 0x202 then s.modGirder unit (fun g => { g with migWait := val % 2 ^ 32 })
    else if idx / 256 = 4 then s.modStream unit (fun x => x.cmuWrite idx val)
    else if idx = 0x603 then (if val % 2 ^ 32 = 0 then s else s.modSched (fun d => { d with age := val % 2 ^ 32 }))
    else if idx = 0x604 then (if val % 2 ^ 32 = 0 then s else s.modSched (fun d => { d with quant := val % 2 ^ 32 }))
    else if idx = 0x700 then
      (if val % 2 ^ 32 < 65536 then s else s.modErr (fun e => { e with wdog := val % 2 ^ 32 }))
    else if idx = 0x701 then (if bit val 0 then s.clearCorr unit else s)
    else if idx = 0x710 then s.putPdes val
    else if idx = 0x711 then s.putPctl val
    else if idx = 0x713 then
      (if s.power.ready = false then s.beforeReady (.event (.parapetFire val))
        else if bit val 0 then s.parapetTrigger 0 else s)
    else if idx = 0x910 then s.putInva (fld val 12 36)
    else if idx = 0x911 then s.putInvc (bit val 63) (fld val 16 2) (fld val 0 12)
    else s)

end Sys2Proof.Machine
end

