-- ==== Sys2Proof/Machine/Images.lean ====
section
/-! DEFINITION. The overlay loader's reading of an Esarnind image (spec/03 R77, spec/15 R320, spec/17 R352). -/

namespace Sys2Proof.Machine

/-- n bytes of an image from an offset, as a number. -/
def imgNat (b : List Nat) (off n : Nat) : Nat := ofLanes 8 ((b.drop off).take n)

/-- A section entry: type, offset, length (Table 3.16). -/
structure Section where
  ty : Nat
  off : Nat
  len : Nat
  deriving DecidableEq, Repr, Inhabited

/-- The section table. -/
def imgSections (b : List Nat) : List Section :=
  (List.range (imgNat b 6 2)).map (fun i =>
    ⟨imgNat b (64 + 16 * i) 4, imgNat b (68 + 16 * i) 4, imgNat b (72 + 16 * i) 4⟩)

/-- The bytes of the section of a type, none where the image has no such section. -/
def imgSection (b : List Nat) (ty : Nat) : Option (List Nat) :=
  ((imgSections b).find? (fun x => x.ty == ty)).map (fun x => (b.drop x.off).take x.len)

/-- Header and section table (R77). DESIGN CHOICE (assumption 53): where the list of refusals names no case for what breaks
the header's own limits, the model refuses; it does not look at the last word of a section entry. -/
def imgHeaderOk (b : List Nat) : Bool :=
  let ss := imgSections b
  imgNat b 0 4 == 0x444E5345 && imgNat b 4 2 == 1 && decide (1 ≤ imgNat b 6 2) && decide (imgNat b 6 2 ≤ 64)
    && decide (64 + 16 * ss.length ≤ b.length)
    && ss.all (fun x => decide (1 ≤ x.ty) && decide (x.ty ≤ 4) && decide (x.off + x.len ≤ b.length)
      && (ss.filter (fun y => y.ty == x.ty)).length == 1)
    && ss.all (fun x => x.ty != 1 || (x.len % 4 == 0 && decide (x.len ≤ 131072)))
    && ss.all (fun x => x.ty != 4 || (x.len % 96 == 0 && decide (x.len / 96 ≤ 255)))

/-- Header values that the directives enrol (R76): register count, slip and allotment. -/
def imgValuesOk (b : List Nat) : Bool :=
  [8, 16, 24, 32].contains (imgNat b 8 4)
    && (imgNat b 12 4 == 0 || (decide (16 ≤ imgNat b 12 4) && decide (imgNat b 12 4 ≤ 4096)))
    && imgNat b 16 4 % 4096 == 0 && decide (4096 ≤ imgNat b 16 4) && decide (imgNat b 16 4 ≤ 524288)
    && (b.drop 24).take 40 == List.replicate 40 0

/-- GANG byte (Table 17.1): members and PLACE. -/
def gangOk (g : Nat) : Bool :=
  let n := g % 64
  let p := g / 64
  decide (1 ≤ n) && decide (n ≤ 32) && p != 3 && (p != 1 || decide (n ≤ 4)) && (p != 2 || decide (n ≤ 16))

/-- BANKS byte against a gang (Table 17.1, R349). -/
def banksOk (banks n place : Nat) : Bool := decide (banks < 64) && (banks == 0 || place == 1 || decide (n ≤ 1))

/-- A stage record (Table 17.2). -/
def imgStage (b : List Nat) : Stage :=
  { entry := imgNat b 0 4, trig := imgNat b 4 1, layer := imgNat b 5 1, gang := imgNat b 6 1, flags := imgNat b 7 1,
    banks := imgNat b 8 1, maxc := imgNat b 9 1, wst := imgNat b 10 10 }

/-- Limits of a stage record. -/
def stageOk (b : List Nat) : Bool :=
  let x := imgStage b
  decide (x.trig ≤ 2) && decide (x.layer ≤ 63) && (x.trig == 2 || x.layer == 0) && gangOk x.gang && decide (x.flags < 4)
    && decide (x.banks < 64) && decide (1 ≤ x.maxc) && decide (x.maxc ≤ 128)
    && imgNat b 20 12 == 0

/-- An edge record (Table 17.2). -/
def imgEdge (b : List Nat) : Edge :=
  { src := imgNat b 0 1, dst := imgNat b 1 1, cls := imgNat b 2 1, quota := imgNat b 4 2 }

/-- Limits of an edge record. -/
def edgeOk (n : Nat) (b : List Nat) : Bool :=
  let x := imgEdge b
  decide (x.src < n) && decide (x.dst < n) && decide (x.cls ≤ 2) && decide (1 ≤ x.quota) && decide (x.quota ≤ 256)
    && imgNat b 3 1 == 0 && imgNat b 6 2 == 0

/-- Records of n bytes each. -/
def imgRecords (n : Nat) (b : List Nat) (count : Nat) : List (List Nat) :=
  (List.range count).map (fun i => (b.drop (n * i)).take n)

/-- Stage and edge records of a pipeline section. -/
def pipeStages (b : List Nat) : List (List Nat) := imgRecords 32 (b.drop 8) (imgNat b 0 1)
def pipeEdges (b : List Nat) : List (List Nat) := imgRecords 8 (b.drop (8 + 32 * imgNat b 0 1)) (imgNat b 1 1)

/-- A pipeline section keeps the limits of R352. -/
def pipeOk (b : List Nat) : Bool :=
  let n := imgNat b 0 1
  let m := imgNat b 1 1
  decide (1 ≤ n) && decide (n ≤ 15) && decide (m ≤ 16) && imgNat b 2 6 == 0 && b.length == 8 + 32 * n + 8 * m
    && (pipeStages b).all stageOk && (pipeEdges b).all (edgeOk n)
    && decide (((pipeStages b).filter (fun x => (imgStage x).trig == 1)).length ≤ 1)

/-- The loader accepts an image (R77, R320, R352). -/
def imgOk (b : List Nat) : Bool :=
  imgHeaderOk b && imgValuesOk b && (match imgSection b 3 with
    | none => true
    | some p => pipeOk p)

/-- An accepted image. -/
def imgOf (handle : Nat) (ctxs : List Nat) (b : List Nat) : Image :=
  let text := (imgSection b 1).getD []
  let pipe := (imgSection b 3).getD []
  let rules := (imgSection b 4).getD []
  let entry := imgNat b 20 4
  { handle := handle, ctxs := ctxs
    text := (imgRecords 4 text (text.length / 4)).map (fun x => imgNat x 0 4)
    data := (imgSection b 2).getD []
    rules := (imgRecords 96 rules (rules.length / 96)).map (fun x => imgNat x 0 96)
    vregs := imgNat b 8 4, slip := imgNat b 12 4, scratch := imgNat b 16 4
    entry := if entry = 0xFFFFFFFF then none else some entry
    stages := (pipeStages pipe).map imgStage, edges := (pipeEdges pipe).map imgEdge
    bytes := b }

/-- IMAGE_REGISTER (R77): an image with a handle for some contexts, or a refusal record of cause 3; nothing comes of it before
step 7 of the boot sequence (R431). -/
def execImageRegister (handle : Nat) (ctxs bytes : List Nat) (s : State) : Host.Outcome State Fault Refusal :=
  if s.power.ready = false then .next s else
  let b := bytes.map (· % 256)
  let h := handle % 2 ^ 32
  if imgOk b = true then
    .next (s.modSched (fun d => { d with images := d.images.filter (fun i => i.handle != h) ++ [imgOf h ctxs b] }))
  else .next (s.noteRecord 3 (ctxs.headD 0) h 0 0 0)

end Sys2Proof.Machine
end

