-- ==== Sys2Proof/Machine/Records.lean ====
section
/-! DEFINITION. Launch records as they arrive: their checks, dependence counters, the record pool and the launch mailbox
(spec/17 R347 to R354, R363, R374). -/

namespace Sys2Proof.Machine

/-! ### Dependence counters -/

/-- A dependence counter's value (R354). -/
def State.counter (s : State) (k : Nat) : Int := (aget s.sched.counters k).getD 0

/-- A counter set; a counter at 0 is not listed. -/
def State.putCounter (s : State) (k : Nat) (v : Int) : State :=
  s.modSched (fun d => { d with counters := if v = 0 then adel d.counters k else aset d.counters k v })

/-- A stage of a context's pipeline (R353). -/
def State.stageOf (s : State) (c st : Nat) : Option Stage :=
  match (s.ctx c).inst with
  | none => none
  | some (img, _, _) => ((s.sched.images.find? (fun i => i.handle == img)).map (·.stages)).bind (fun l => l[st]?)

/-- Ready records of a stage (R358). -/
def State.readyOf (s : State) (c st : Nat) : List TaskRec :=
  s.sched.recs.filter (fun r => !r.waiting && r.ctx == c && r.stage == st)

/-- A stage's quota by the formula of R358. -/
def State.quotaNow (s : State) (c st : Nat) : Nat :=
  match s.stageOf c st with
  | none => 1
  | some x => min x.maxc (max 1 (s.readyOf c st).length)

/-- A stage's quota is evaluated when its first task becomes ready (R358). -/
def State.firstQuota (s : State) (c st : Nat) : State :=
  if st < 15 ∧ lget (s.ctx c).quotas st none = none then
    let q := s.quotaNow c st
    s.modCtx c (fun x => { x with
      quotas := (x.quotas ++ List.replicate (15 - x.quotas.length) none).set st (some q) })
  else s

/-- The record that waits on a counter becomes ready where the counter reads 0 (R354). -/
def State.settleCounter (s : State) (k : Nat) : State :=
  if s.counter k ≠ 0 then s else
  match s.sched.recs.find? (fun r => r.waiting && r.dep == some k) with
  | none => s
  | some r =>
    let s := s.modSched (fun d => { d with recs := d.recs.map (fun x =>
      if x.waiting ∧ x.dep = some k then { x with waiting := false, readyAt := s.now } else x) })
    s.firstQuota r.ctx r.stage

/-- A subtraction from a counter: dropped and counted below -2²³ (R354). -/
def State.decrement (s : State) (k n : Nat) : State :=
  let v := s.counter k - n
  if v < -(2 ^ 23 : Int) then s.modSched (fun d => { d with drop := satAdd 0xFFFF d.drop 1 })
  else (s.putCounter k v).settleCounter k

/-! ### Records -/

/-- Fields of a record as a 512-bit number (Table 17.1). -/
def lrKind (r : Nat) : Nat := fld r 0 8
def lrFlags (r : Nat) : Nat := fld r 8 8
def lrLevel (r : Nat) : Nat := fld r 16 8
def lrGang (r : Nat) : Nat := fld r 24 8
def lrStage (r : Nat) : Nat := fld r 32 8
def lrBanks (r : Nat) : Nat := fld r 40 8
def lrCtx (r : Nat) : Nat := fld r 48 16
def lrImage (r : Nat) : Nat := fld r 64 32
def lrDepId (r : Nat) : Nat := fld r 96 12
def lrDepV (r : Nat) : Bool := bit r 111
def lrDepInit (r : Nat) : Nat := fld r 112 16
def lrWst (r : Nat) : Nat := fld r 432 80

/-- DEP keeps its limits. -/
def lrDepOk (r : Nat) : Bool :=
  if lrDepV r then lrDepInit r != 0 && fld r 108 3 == 0 else fld r 96 32 == 0

/-- The launch record, without its dependence (R348): FLAGS bits 1:0, gang, banks and regions of a stage launch come from
the stage. -/
def State.lrTask (s : State) (r src : Nat) : TaskRec :=
  let base : TaskRec :=
    { flags := lrFlags r, level := lrLevel r, n := lrGang r % 64, place := lrGang r / 64, stage := lrStage r
      banks := lrBanks r, ctx := lrCtx r, image := lrImage r, arg := fld r 128 64, v0 := fld r 192 64
      jaddr := fld r 256 64, psrc := fld r 320 64, plen := fld r 384 20, poff := fld r 404 7, wst := lrWst r
      src := src }
  match s.stageOf (lrCtx r) (lrStage r) with
  | none => base
  | some x => { base with
      flags := x.flags + lrFlags r / 4 * 4, n := x.gang % 64, place := x.gang / 64, banks := x.banks, wst := x.wst }

/-- Table 17.1 and R348 for a launch: level limits, zero fields. -/
def lrShape (r : Nat) (mgmt : Bool) : Bool :=
  let lv := lrLevel r
  decide (lrFlags r < 8) && fld r 411 5 == 0 && fld r 416 16 == 0 && decide (lrBanks r < 64)
    && (fld r 384 20 != 0 || fld r 320 64 == 0)
    && (if lrStage r = 15 then
        gangOk (lrGang r) && ((decide (4 ≤ lv) && decide (lv ≤ 23)) || (mgmt && decide (1 ≤ lv) && decide (lv ≤ 3)))
      else decide (lrStage r < 15) && lrFlags r % 4 == 0 && lrGang r == 0 && lrBanks r == 0 && lrWst r == 0 && lv == 0)

/-- The dependence counter of a record lies in its context's range and holds no waiting record (R349). -/
def State.depFree (s : State) (r : Nat) : Bool :=
  let c := s.ctx (lrCtx r)
  !lrDepV r || (decide (lrDepId r < c.dcnt)
    && (s.sched.recs.all (fun x => !(x.waiting && x.dep == some (c.dbase + lrDepId r)))))

/-- The image and the regions of a task fit (R349). -/
def State.taskFits (s : State) (t : TaskRec) : Bool :=
  match s.sched.images.find? (fun i => i.handle == t.image && i.ctxs.contains t.ctx) with
  | none => false
  | some i => decide (i.data.length ≤ i.scratch) && decide (t.plen = 0 ∨ 4096 * t.poff + t.plen ≤ i.scratch)
      && (t.stage != 15 || i.entry.isSome) && banksOk t.banks t.n t.place

/-- The stage of a record that arrives by mailbox or SPAWN is the context's and spawn-triggered (R349). -/
def State.stageFits (s : State) (r : Nat) : Bool :=
  lrStage r == 15 || (match s.stageOf (lrCtx r) (lrStage r) with
    | some x => x.trig == 0
    | none => false)

/-- A record from the mailbox or a SPAWN is acceptable (R348 to R350). -/
def State.recordOk (s : State) (r src : Nat) (mgmt : Bool) : Bool :=
  decide (lrCtx r < 1024) && !(s.ctx (lrCtx r)).fenced && lrDepOk r
    && (if lrKind r = 2 then
        lrFlags r == 0 && lrDepV r && decide (lrDepId r < (s.ctx (lrCtx r)).dcnt)
      else lrKind r == 1 && lrShape r mgmt && s.stageFits r && s.depFree r && s.taskFits (s.lrTask r src))

/-- Cause of a refusal by source (R385). -/
def refuseCause (src : Nat) : Nat := if src = 0 then 1 else if src = 1 then 2 else 6

/-- A refused record: cause, context, image, address, and the frame number for the scheduler's own (R385). -/
def State.refuse (s : State) (src ctx image addr frame : Nat) : State :=
  s.noteRecord (refuseCause src) (if ctx < 1024 then ctx else 0) image addr 0 frame

/-- A launch enters the pool or its context's memory queue (R354, R363); dep names its counter and DEPINIT. -/
def State.enrol (s : State) (t : TaskRec) (dep : Option (Nat × Nat)) (queued : Bool) : State :=
  let s := match dep with
    | some (k, n) => s.putCounter k (s.counter k + n)
    | none => s
  let t := { t with dep := dep.map Prod.fst, waiting := dep.isSome, readyAt := s.now, spilled := queued }
  let s := s.modSched (fun d => { d with recs := d.recs ++ [t] })
  match dep with
  | some (k, _) => s.settleCounter k
  | none => s.firstQuota t.ctx t.stage

/-- A launch that has passed its checks (R363); a spawn refused for want of room is counted (assumption 56). -/
def State.arrive (s : State) (t : TaskRec) (dep : Option (Nat × Nat)) (addr : Nat) : State :=
  let queued := if t.src = 1 then s.freeRecs == 0 else decide (s.freeRecs ≤ 256)
  if queued = true ∧ (s.ctx t.ctx).qcap ≤ s.spilledIn t.ctx then
    if 2 ≤ t.src then
      (s.modSched (fun d => { d with heldLaunch := d.heldLaunch ++ [t] })).noteRecord 4 t.ctx t.image addr 0 t.frame
    else
      let s := if t.src = 1 then s.modSched (fun d => { d with refused := d.refused + 1 }) else s
      s.refuse t.src t.ctx t.image addr 0
  else s.enrol t dep queued

/-- A record from the mailbox or a commit (R349, R350, R354). -/
def State.record (s : State) (r src addr : Nat) (mgmt : Bool) : State :=
  if s.recordOk r src mgmt = false then s.refuse src (lrCtx r) (lrImage r) addr 0
  else
    let k := (s.ctx (lrCtx r)).dbase + lrDepId r
    if lrKind r = 2 then s.decrement k (lrDepInit r)
    else s.arrive (s.lrTask r src) (if lrDepV r then some (k, lrDepInit r) else none) addr

/-! ### The launch mailbox -/

/-- The scheduler copies the record that a mailbox names and reads back 0 (R351). Function 17 stands for the management
core. DESIGN CHOICE (assumption 126): a record that cannot be read is refused (R381). -/
def State.mailboxCopy (s : State) (fn : Nat) : State :=
  match lget s.host.lmbx fn none with
  | none => s
  | some a =>
    let s := s.modHost (fun h => { h with lmbx := h.lmbx.set fn none })
    match if s.poisonedPa a then none else (s.homeScrub a).toOption with
    | none => (s.poison a).refuse 0 0 0 a 0
    | some s =>
    let r := mnat s.home a 64
    if fn < 17 ∧ (s.ctx (lrCtx r)).owner ≠ fn then s.refuse 0 (lrCtx r) (lrImage r) a 0
    else s.record r 0 a (fn == 17)

/-- LAUNCH_MAILBOX (R351, R419): a write is refused with a record while the mailbox reads nonzero, and where it breaks its
limits. The scheduler copies the record at once or later, and at once for the address 0, as which the mailbox reads 0. One before READY is unsupported (R433). -/
def execLaunchMailbox (fn val : Nat) (s : State) : Host.Outcome State Fault Refusal :=
  if 17 < fn then .next s
  else if s.power.ready = false then .next (s.beforeReady (.event (.launchMailbox fn val)))
  else if fld val 48 16 ≠ 0 ∨ val % 64 ≠ 0 ∨ 2 ^ 64 ≤ val ∨ (lget s.host.lmbx fn none).getD 0 ≠ 0 then
    .next (s.refuse 0 0 0 (val % 2 ^ 64) 0)
  else
    let s := s.modHost (fun h => { h with lmbx := h.lmbx.set fn (some val) })
    .next (if val ≠ 0 ∧ choice s 0 = true then s else s.mailboxCopy fn)

/-- SPILL_REFILL (R363): while more than 256 records are free, the oldest spilled record moves into the pool; a launch
held at its source enters once there is room for it. -/
def execSpillRefill (s : State) : Host.Outcome State Fault Refusal :=
  if s.freeRecs ≤ 256 then .next s else
  match lfind (fun r => r.spilled) s.sched.recs with
  | some i => .next (s.modSched (fun d => { d with recs := lmod d.recs i (fun r => { r with spilled := false }) }))
  | none =>
    match s.sched.heldLaunch with
    | [] => .next s
    | t :: l => .next ((s.modSched (fun d => { d with heldLaunch := l })).enrol t none false)

/-- QUOTA_EVALUATION (R358): every 10 µs. -/
def execQuotaEvaluation (s : State) : Host.Outcome State Fault Refusal :=
  if s.now < s.sched.nextQuota then .next s else
  .next (s.modSched (fun d => { d with
    nextQuota := d.nextQuota + 23000
    ctxs := d.ctxs.zipIdx.map (fun (p : Ctx × Nat) => { p.1 with
      quotas := p.1.quotas.mapIdx (fun i q => q.map (fun _ => s.quotaNow p.2 i)) }) }))

/-! ### SPAWN -/

/-- Spawned records a strand holds. -/
def Strand.spawns (t : Strand) : Nat := (t.held.filter (fun h => match h with
  | .spawn _ _ => true
  | _ => false)).length

/-- SPAWN (R374). -/
def execSpawn (a : Nat) (g : Guard) (s : State) : Host.Outcome State Fault Refusal :=
  guardedPre g s (do
    let va := (s.rdS a).toNat
    needAt (va % 64 == 0) .alignment va
    let off ← match window va with
      | .spad none off =>
        if off + 64 ≤ s.st.allot then .ok off else .error (.fault { code := .scratchBounds, addr := va })
      | _ => .error (.fault { code := .scratchBounds, addr := va })
    let s ← s.scrub (.spad s.cur off) 64
    let r := mnat (s.core s.cur).spad off 64
    needAt (s.recordOk r 1 false && lrCtx r == s.st.task.ctx && decide (s.st.spawns < 32)) .illegalOperand va
    pure (s.modSt (fun t => t.hold s.free (.spawn r va))))

end Sys2Proof.Machine
end

