-- ==== Sys2Proof/Machine/Sched.lean ====
section
/-! DEFINITION. The scheduler's choice and placement of tasks, boot mailboxes, and the start of a strand
(spec/17 R355 to R366). -/

namespace Sys2Proof.Machine

/-! ### Eligibility -/

/-- The image of a record. -/
def State.imageOf (s : State) (h : Nat) : Option Image := s.sched.images.find? (fun i => i.handle == h)

/-- A core runs nothing and may take a task (R355, R364, R382, R395). -/
def Core.idle (c : Core) : Bool :=
  !c.ord.live && !c.ord.starting && !c.inPar && c.preempt == 0 && !c.fenced && !c.pinned

/-- The thermal limits and the power limiter hold off placements on a core (R437, R439). -/
def State.heldOff (s : State) (k : Nat) : Bool :=
  (s.power.stopPlace && !s.isParapet k)
    || (s.power.delayPlace && !s.parCluster (clusterOf k) && (s.girder (clusterOf k)).k == 8)

/-- A core that a relaunched task must take first (R390). -/
def State.reservedFor (s : State) (t : TaskRec) (k : Nat) : Bool :=
  s.sched.recs.any (fun r => r != t && (match r.onCore with
    | some (_, c) => c == k && (s.core k).idle
    | none => false))

/-- A core may take a member of a task (R355). -/
def State.coreOk (s : State) (t : TaskRec) (scratch k : Nat) : Bool :=
  let n := clusterOf k
  decide (k < 128) && (s.core k).idle && !(s.cluster n).fenced && !(s.stack (stackOf n)).fenced
    && decide (scratch + 4096 * (s.cluster n).carve ≤ 0x80000)
    && t.wst == t.wst &&& (s.die (dieOf n)).ready
    && !(decide (4 ≤ t.disc) && s.parCluster n) && !s.heldOff k && !s.reservedFor t k

/-- The banks and buffers a task names are free in a cluster (R271, R355). -/
def State.banksFree (s : State) (banks n : Nat) : Bool :=
  banks == 0 || (!(s.girder n).fenced
    && (List.range 6).all (fun i => !bit banks i || (lget (s.girder n).owner i none).isNone))

/-- Two cores lie together as PLACE asks (Table 17.1). -/
def together (place a b : Nat) : Bool :=
  match place with
  | 1 => clusterOf a == clusterOf b
  | 2 => stackOf (clusterOf a) == stackOf (clusterOf b)
  | _ => true

/-- Running strands of a cluster. -/
def State.load (s : State) (n : Nat) : Nat :=
  ((List.range 4).filter (fun l => (s.core (4 * n + l)).ord.live || (s.core (4 * n + l)).ord.starting
    || (s.core (4 * n + l)).inPar)).length

/-- The cores of a cluster. -/
def coresOf (n : Nat) : List Nat := (List.range 4).map (fun l => 4 * n + l)

/-- Cluster of the partition of a stage's lowest-numbered input edge (R359). -/
def State.inCluster (s : State) (t : TaskRec) : Option Nat :=
  match (s.ctx t.ctx).inst with
  | none => none
  | some (_, cl, _) => if t.stage < 15 ∧ (s.edgesOf t.ctx).any (fun e => e.dst == t.stage) = true then some cl else none

/-- A list without repeats, first occurrences kept. -/
def noRepeats : List Nat → List Nat → List Nat
  | _, [] => []
  | seen, a :: l => if seen.contains a then noRepeats seen l else a :: noRepeats (a :: seen) l

/-- Cores in the order in which R359 prefers them. -/
def State.prefs (s : State) (t : TaskRec) : List Nat :=
  match s.inCluster t with
  | none => List.range 128
  | some p =>
    let near := (List.range 32).filter (fun n => stackOf n == stackOf p)
    noRepeats [] (coresOf p ++ (lsort s.load near).flatMap coresOf ++ List.range 128)

/-- The members' cores, member 0's first, taken from a list of cores in order of preference. -/
def pickCores (place n : Nat) (ok0 : Nat → Bool) (all : List Nat) : List Nat → Option (List Nat)
  | [] => none
  | k :: l =>
    let rest := (all.filter (fun x => x != k && together place k x)).take (n - 1)
    if ok0 k && rest.length == n - 1 then some (k :: rest) else pickCores place n ok0 all l

/-- The members' cores where member m must take core c (R390). -/
def pickWith (place n m c : Nat) (ok0 : Nat → Bool) (all : List Nat) : List Nat → Option (List Nat)
  | [] => none
  | k :: l =>
    let rest := (all.filter (fun x => x != k && x != c && together place k x)).take (n - 2)
    if k != c && ok0 k && together place k c && rest.length == n - 2 then
      some ((k :: rest.take (m - 1)) ++ c :: rest.drop (m - 1))
    else pickWith place n m c ok0 all l

/-- The cores on which a task would be placed (R355, R359, R390). -/
def State.coresFor (s : State) (t : TaskRec) : Option (List Nat) :=
  match s.imageOf t.image with
  | none => none
  | some i =>
    let all := (s.prefs t).filter (s.coreOk t i.scratch)
    let ok0 (k : Nat) : Bool := s.banksFree t.banks (clusterOf k)
    match t.onCore with
    | some (m, c) =>
      if all.contains c = false then (if (s.core c).fenced then pickCores t.place t.n ok0 all all else none)
      else if m = 0 then pickCores t.place t.n ok0 all [c]
      else pickWith t.place t.n m c ok0 all all
    | none => pickCores t.place t.n ok0 all all

/-- Running tasks of a stage (R358). -/
def State.runningOf (s : State) (c st : Nat) : Nat :=
  (s.sched.gangs.filter (fun g => g.task.ctx == c && g.task.stage == st && !g.members.all (·.ended))).length

/-- A partition's slots that are not free, times 16, over its quota (R358). -/
def Partition.fill (p : Partition) (quota : Nat) : Nat :=
  16 * (p.slots.filter (fun x => x.st != .free)).length / quota

/-- Fill of edge e of a context, 0 without a partition. -/
def State.fillOf (s : State) (c e quota : Nat) : Nat :=
  match s.partition c e with
  | some (_, p) => p.fill quota
  | none => 0

/-- A stage's pressure: input fill less output fill (R358). -/
def State.pressure (s : State) (c st : Nat) : Int :=
  let es := (s.edgesOf c).mapIdx (fun i e => (e, s.fillOf c i e.quota))
  let ins := (es.filter (fun p => p.1.dst == st)).map Prod.snd
  let outs := (es.filter (fun p => p.1.src == st)).map Prod.snd
  let i : Nat := if ins.isEmpty then 16 else ins.foldl max 0
  (i : Int) - (outs.foldl max 0 : Nat)

/-- None of a stage's output partitions is full (R355). -/
def State.outputsOpen (s : State) (c st : Nat) : Bool :=
  ((s.edgesOf c).mapIdx (fun i e => e.src != st || (match s.partition c i with
    | some (_, p) => p.slots.any (fun x => x.st == .free)
    | none => true))).all id

/-- A ready record is eligible (R355, R358, R382). -/
def State.eligible (s : State) (t : TaskRec) : Bool :=
  !t.waiting && !t.spilled && !(s.ctx t.ctx).fenced
    && (t.stage == 15 || decide (s.runningOf t.ctx t.stage < (lget (s.ctx t.ctx).quotas t.stage none).getD 1))
    && s.outputsOpen t.ctx t.stage && (s.coresFor t).isSome

/-- Current level of a ready record (R360). -/
def State.level (s : State) (t : TaskRec) : Nat :=
  if t.stage = 15 then t.level
  else
    let c := s.ctx t.ctx
    max c.ceil (c.base - (s.now - t.readyAt) / 2300 / s.sched.age)

/-! ### Deficit round robin -/

/-- One pass of the ring of a level from a pointer (R357): the context picked, or none, with the deficits. -/
def drrPass (eligible ready : Nat → Bool) (q : Nat) (weight : Nat → Nat) :
    List Nat → (Nat → Int) → List (Nat × Int) → Option Nat × List (Nat × Int)
  | [], _, out => (none, out)
  | c :: l, d, out =>
    if eligible c then
      if 0 < d c then (some c, out)
      else drrPass eligible ready q weight l d ((c, d c + (q * weight c : Nat)) :: out)
    else if ready c then drrPass eligible ready q weight l d out
    else drrPass eligible ready q weight l d ((c, 0) :: out)

/-- Deficits put into the contexts. -/
def State.putDefs (s : State) (l : List (Nat × Int)) : State :=
  l.foldl (fun s p => s.modCtx p.1 (fun c => { c with deficit := p.2 })) s

/-- drr_pick (R357), pass by pass. -/
def drrPick (lv : Nat) (ready elig : List Nat) : Nat → State → Option Nat × State
  | 0, s => (none, s)
  | n + 1, s =>
    let p := lget s.sched.ptr lv 0
    let ring := (List.range 1024).drop p ++ (List.range 1024).take p
    match drrPass elig.contains ready.contains s.sched.quant (fun c => (s.ctx c).weight) ring
        (fun c => (s.ctx c).deficit) [] with
    | (some c, l) => (some c, (s.putDefs l).modSched (fun d => { d with ptr := d.ptr.set lv c }))
    | (none, l) => drrPick lv ready elig n (s.putDefs l)

/-- Passes that are enough for some eligible context's deficit to become positive. -/
def drrPasses (s : State) (elig : List Nat) : Nat :=
  2 + (elig.map (fun c => (-(s.ctx c).deficit).toNat / (s.sched.quant * (s.ctx c).weight))).foldl max 0

/-- The stage of greatest pressure among records of a context, the lower number on a tie (R356). -/
def State.pressStage (s : State) (c : Nat) (ts : List TaskRec) : Option Nat :=
  (ts.map (·.stage)).foldl (fun acc st => match acc with
    | none => some st
    | some b =>
      if s.pressure c b < s.pressure c st then some st
      else if s.pressure c b = s.pressure c st ∧ st < b then some st
      else some b) none

/-- The task that R356 picks at a level, with the ring and the deficits as the pick leaves them; ready records that lie in a
memory queue keep their context's deficit (R357, R363). -/
def State.pickAt (s : State) (lv : Nat) : Option (TaskRec × State) :=
  let ready := s.sched.recs.filter (fun t => !t.waiting && s.level t == lv)
  match ready.filter s.eligible with
  | [] => none
  | ts =>
    let elig := ts.map (·.ctx)
    match drrPick lv (ready.map (·.ctx)) elig (drrPasses s elig) s with
    | (none, _) => none
    | (some c, s') =>
      let mine := ts.filter (fun t => t.ctx == c)
      (s.pressStage c mine).bind (fun g => (mine.find? (fun t => t.stage == g)).map (fun t => (t, s')))

/-! ### Placement -/

/-- A core's boot mailbox written for member m of a gang (R359, R364), which is a wake (R402). -/
def State.boot (s : State) (t : TaskRec) (id : Nat) (p : Nat × Nat) : State :=
  (s.wakeAtOnce p.2).modCore p.2 (fun c => { c with
    mbImage := t.image, mbArg := t.arg
    ord := { starting := true, gang := id, member := p.1, task := t, image := t.image, startedAt := s.now } })

/-- Banks and buffers given to a gang in a cluster, zeroed (R271). -/
def State.giveBanks (s : State) (n banks id : Nat) : State :=
  { s with upsets := s.upsets.filter (fun u => match u.place with
      | .girder c i => !(c == n && bit banks i)
      | _ => true) }.modGirder n (fun g => { g with
    owner := g.owner.mapIdx (fun i o => if bit banks i then some id else o)
    banks := g.banks.mapIdx (fun i b => if bit banks i then [] else b)
    sbs := g.sbs.mapIdx (fun i b => if bit banks (4 + i) then [] else b) })

/-- place (R359): all members in one step. -/
def State.place (s : State) (t : TaskRec) (ks : List Nat) (lv : Nat) : State :=
  let id := s.sched.nextGang
  let t' := { t with onCore := none }
  let s := s.modSched (fun d => { d with
    recs := d.recs.erase t
    nextGang := d.nextGang + 1
    gangs := d.gangs ++ [{ id := id, task := t', members := ks.map (fun k => { core := k }), level := lv,
                           startedAt := s.now }] })
  let s := s.giveBanks (clusterOf (ks.headD 0)) t.banks id
  (ks.mapIdx (fun m k => (m, k))).foldl (fun s p => s.boot t' id p) s

/-- Sublists of n elements, in order. -/
def combos {α : Type} : Nat → List α → List (List α)
  | 0, _ => [[]]
  | _ + 1, [] => []
  | n + 1, a :: l => (combos n l).map (a :: ·) ++ combos (n + 1) l

/-- Gangs that a task at a level may displace, those to discard first in front (R361). -/
def State.victims (s : State) (lv : Nat) : List Gang :=
  lsort (fun g => (1000 - g.level) * 2 ^ 80 + (s.now - g.startedAt))
    (s.sched.gangs.filter (fun g => !g.pinned && !g.committed && !g.task.service && decide (lv + 4 ≤ g.level)))

/-- The state with gangs discarded for a ready task (R361). -/
def State.displace (s : State) (gs : List Gang) : State := gs.foldl (fun s g => s.discard g.id (.requeue true)) s

/-- The fewest gangs whose discard makes a task eligible, if any (R361). -/
def State.displaced (s : State) (t : TaskRec) (lv : Nat) : Option State :=
  let vs := s.victims lv
  ((List.range vs.length).map (· + 1)).foldl (fun acc n => match acc with
    | some x => some x
    | none => ((combos n vs).find? (fun gs => (s.displace gs).eligible t)).map s.displace) none

/-- The scheduler's act at a level (R356, R361): a placement, or a pre-emption for a task that cannot be placed. -/
def State.serve (s : State) (lv : Nat) : Option State :=
  match s.pickAt lv with
  | some (t, s') => some (s'.place t ((s.coresFor t).getD []) lv)
  | none =>
    (s.sched.recs.filter (fun t => !t.waiting && !t.spilled && s.level t == lv && !s.eligible t)).foldl
      (fun acc t => match acc with
        | some x => some x
        | none => s.displaced t lv) none

/-- The first level with an act. -/
def State.serveFrom (s : State) : List Nat → Option State
  | [] => none
  | lv :: l => match s.serve lv with
    | some x => some x
    | none => s.serveFrom l

/-- DISPATCH (R356): one placement, or one pre-emption, at the first level that has one. -/
def execDispatch (s : State) : Host.Outcome State Fault Refusal :=
  if s.power.ready then .next ((s.serveFrom (List.range 24)).getD s) else .next s

/-- BOOT_MAILBOX (R364, R433): a host or management write starts a core withdrawn from the scheduler; a core that the
scheduler owns refuses it. -/
def execBootMailbox (core image arg : Nat) (s : State) : Host.Outcome State Fault Refusal :=
  let c := s.core core
  if s.power.ready = false then .next (s.beforeReady (.event (.bootMailbox core image arg)))
  else if core < 128 ∧ c.pinned = true ∧ ({ c with pinned := false } : Core).idle = true
      ∧ ((s.imageOf (image % 2 ^ 32)).any (fun i => i.entry.isSome)) = true then
    let t : TaskRec := { image := image % 2 ^ 32, arg := arg % 2 ^ 64, service := true, level := 1 }
    let id := s.sched.nextGang
    let s := s.modSched (fun d => { d with
      nextGang := d.nextGang + 1
      gangs := d.gangs ++ [{ id := id, task := t, members := [{ core := core }], level := 1, startedAt := s.now }] })
    .next (s.boot t id (0, core))
  else .next s

/-! ### Start of a strand -/

/-- The image of a strand that starts is made resident (R365). -/
def State.loadImage (s : State) (k : Nat) (i : Image) : State :=
  s.residentOn k (if s.isParapet k then s.err.img else 2 ^ 32) i

/-- Registers at the start of a strand (R99, R366). -/
def startRegs (s1 s2 s3 s4 : Nat) : Regs :=
  { s := ((((List.replicate 32 0#64).set 1 (BitVec.ofNat 64 s1)).set 2 (BitVec.ofNat 64 s2)).set 3
      (BitVec.ofNat 64 s3)).set 4 (BitVec.ofNat 64 s4) }

/-- A strand as it starts (R78, R79, R366). DESIGN CHOICE (assumption 140): an entry offset that is no multiple of 4 starts the
sequencers there, at the word that holds it, and one past the text at the end of the text. -/
def startStrand (t : Strand) (i : Image) (entry : Nat) (keyEn : Bool) (now : Nat) : Strand :=
  { live := true, gang := t.gang, member := t.member, task := t.task, image := i.handle, entry := entry
    vregs := i.vregs, allot := i.scratch, startedAt := t.startedAt
    es := { pc := entry, next := now }, ev := { pc := entry, next := now }, em := { pc := entry, next := now }
    ec := { pc := entry, next := now }
    slipw := if i.slip = 0 then 256 else i.slip
    regs := startRegs t.task.arg t.task.v0 (256 * t.task.n + t.member) t.task.s4
    ks := { en := keyEn } }

/-- Where a strand of a task starts (R78): its stage's entry, or the image's. -/
def State.entryOf (s : State) (t : TaskRec) (i : Image) : Nat :=
  match s.stageOf t.ctx t.stage with
  | some x => x.entry
  | none => i.entry.getD 0

/-- Bytes put into the core's own scratchpad, whose words' bit errors a partial write meets (R189). -/
def State.spadPuts (s : State) (k off : Nat) (bs : List Byte) : Res State := do
  let s ← (if bs.isEmpty then .ok s else s.scrubW (.spad k off) bs.length)
  pure (s.modCore k (fun c => { c with spad := mputs c.spad off bs }))

/-- PLEN bytes of the preload, read byte by byte at the home (R366). -/
def State.preload (s : State) (k src : Nat) : Nat → Res (List Byte × State)
  | 0 => .ok ([], s)
  | n + 1 => do
    let (l, s) ← s.preload k src n
    let (b, s) ← s.cmdRd { core := k, current := true } (wrapInt 64 (src + n))
    pure (l ++ [b], s)

/-- The bytes that a launch places in the allotment: the data section, then the preload (R366). -/
def State.launchBytes (s : State) (k : Nat) (t : TaskRec) (data : List Nat) : Res State := do
  let s ← s.spadPuts k 0 (data.map (BitVec.ofNat 8))
  let (l, s) ← s.preload k t.psrc t.plen
  s.spadPuts k (4096 * t.poff) l

/-- STRAND_START (R365, R366). A gated core wakes first, and a preload whose source holds a read waits for it (R226). -/
def execStrandStart (core : Nat) (s0 : State) : Host.Outcome State Fault Refusal :=
  let t := (s0.core core).ord
  if t.starting = false ∨ (s0.core core).gated = true ∨ (s0.cluster (clusterOf core)).gated = true then .next s0 else
  match s0.imageOf t.task.image with
  | none => .next s0
  | some i =>
    let s := (s0.loadImage core i).modCore core (fun c => { c with
      ord := startStrand t i (s0.entryOf t.task i) c.keyEn s0.now })
    let s := { s.freshRegs core with cur := core }
    match s.launchBytes core t.task i.data with
    | .ok s' => .next s'
    | .error (.fault f) => .next (takeFault { f with engine := 6, text := 0, precise := false } s)
    | .error (.partly s' f) => .next (takeFault { f with engine := 6, text := 0, precise := false } s')
    | .error _ => .next s0

end Sys2Proof.Machine
end

