-- ==== Sys2Proof/Machine/Cmu.lean ====
section
/-! DEFINITION. Codec streams and the change-mask unit: bitstream writes, delivered frames, decisions, tile lists and delta
reports (spec/16_temporal_reuse.md). -/

namespace Sys2Proof.Machine

/-! ### The frame store -/

/-- A size rounded up to a multiple of 4,096. -/
def alignPage (n : Nat) : Nat := cdiv n 4096 * 4096
/-- Bytes of a sample (R328): 2 for a 10-bit stream. DESIGN CHOICE (assumption 131): an AV1 stream is of the depth that its
pictures have. -/
def sdSample (d : StreamDesc) (deep : Bool) : Nat := if d.codec = 3 ∨ (d.codec = 4 ∧ deep = true) then 2 else 1
/-- Row pitch of the planes, for samples of b bytes (R328). -/
def sdPitch (d : StreamDesc) (b : Nat) : Nat := cdiv (d.w * b) 256 * 256
/-- Blocks in a row and in a column (R328). -/
def sdBw (d : StreamDesc) : Nat := cdiv d.w 8
def sdBh (d : StreamDesc) : Nat := cdiv d.h 8
/-- Offsets of the motion and residual tensors, and the size of an entry (Table 16.3, R328). -/
def sdOmv (d : StreamDesc) (b : Nat) : Nat := alignPage (4096 + sdPitch d b * 3 * d.h / 2)
def sdOres (d : StreamDesc) (b : Nat) : Nat := alignPage (sdOmv d b + 4 * sdBw d * sdBh d)
def sdEntryBytes (d : StreamDesc) (b : Nat) : Nat := sdOres d b + 2 * sdBw d * sdBh d

/-- Address of the entry of a frame (R328). -/
def sdEntryAt (d : StreamDesc) (f : Nat) : Nat := d.fbase + f % d.f * d.es

/-! ### What an engine delivers -/

/-- NOVEC (R329). -/
def noVec : Nat := 0x8000

/-- The translation of the previous delivered frame that a prediction is, none for any other (R329). DESIGN CHOICE (assumption
131): where two that differ are averaged, the engine names either. -/
def lumaVec : LumaPred → Option (Int × Int)
  | .prev x y => some (x, y)
  | .bi x y u v snd => some (if snd then (u, v) else (x, y))
  | .weighted | .intra | .older | .warped | .global | .overlapped => none

/-- The motion entry of a block (R329). DESIGN CHOICE (assumption 131): a vector that 16 bits cannot hold, or that would read
as NOVEC, makes the block one that is not usable. -/
def motionEntry (x : BlockData) : Nat :=
  match x.parts.map lumaVec with
  | some (a, b) :: l =>
    if l.all (· == some (a, b)) = true ∧ a % 2 = 0 ∧ b % 2 = 0 ∧ -32768 < a / 2 ∧ a / 2 ≤ 32767 ∧ -32768 ≤ b / 2
        ∧ b / 2 ≤ 32767 then
      wrapInt 16 (a / 2) + 65536 * wrapInt 16 (b / 2)
    else noVec
  | _ => noVec

/-- Every block is predicted within its picture: a random-access point, and a picture without one before it (R327, R329). -/
def allIntra (x : FrameData) : Bool := x.blocks.all (fun b => b.parts.all (· == .intra))

/-- The residual entry of a block (R330). -/
def residualEntry (x : BlockData) : Nat := (x.res.map Int.natAbs).sum % 65536

/-- A frame as it goes to the frame store: bytes of a sample, the samples, and the entries of the two tensors. -/
structure Delivered where
  b : Nat
  luma : List Nat
  chroma : List Nat
  mv : List Nat
  res : List Nat
  deriving DecidableEq, Repr

/-- The frame of what an engine has decoded. -/
def delivered (d : StreamDesc) (x : FrameData) : Delivered :=
  { b := sdSample d x.deep, luma := x.luma, chroma := x.chroma, mv := x.blocks.map motionEntry
    res := x.blocks.map residualEntry }

/-- Bits of a sample. -/
def sdDepth (b : Nat) : Nat := if b = 2 then 10 else 8

/-- An error of the codec's datapath, which nothing detects, leaves every value open (R331, R388). -/
def Delivered.wrong (x : Delivered) (time : Nat) : Delivered :=
  let f (q w : Nat) (l : List Nat) : List Nat := l.mapIdx (fun i _ => Config.freeBits (time * 2 ^ 40 + q * 2 ^ 38 + i) % 2 ^ w)
  { x with luma := f 0 (sdDepth x.b) x.luma, chroma := f 1 (sdDepth x.b) x.chroma, mv := f 2 32 x.mv, res := f 3 16 x.res }

/-- Pixels of block i of a picture (R329). -/
def blockPixels (d : StreamDesc) (i : Nat) : Nat := min 8 (d.w - 8 * (i % sdBw d)) * min 8 (d.h - 8 * (i / sdBw d))

/-- What the engine decoded is a picture of the stream (R328 to R330). -/
def frameFits (d : StreamDesc) (x : FrameData) : Bool :=
  let b := sdSample d x.deep
  let n := sdPitch d b / b * d.h
  (!x.key || allIntra x) && x.deep == (b == 2) && x.luma.length == n && x.chroma.length == n / 2
    && (x.luma ++ x.chroma).all (fun v => decide (v < 2 ^ sdDepth b))
    && x.blocks.length == sdBw d * sdBh d
    && x.blocks.zipIdx.all (fun p => !p.1.parts.isEmpty && (p.1.res.isEmpty || p.1.res.length == blockPixels d p.2)
        && p.1.res.all (fun r => decide (r.natAbs < 2 ^ sdDepth b)))
    && decide (sdEntryBytes d b ≤ d.es)

/-- The bytes of a plane's samples: a 10-bit one lies in bits 15:6 of its two (R328). -/
def planeBytes (b : Nat) (l : List Nat) : List Byte :=
  if b = 2 then l.flatMap (fun v => bytesLE 2 (64 * v)) else l.map (BitVec.ofNat 8)

/-- The pieces of an entry with their offsets (Table 16.3); the number comes last (R331). -/
def entryPieces (d : StreamDesc) (f : Nat) (cold : Bool) (x : Delivered) : List (Nat × List Byte) :=
  [(4096, planeBytes x.b x.luma), (4096 + sdPitch d x.b * d.h, planeBytes x.b x.chroma),
   (sdOmv d x.b, x.mv.flatMap (bytesLE 4)), (sdOres d x.b, x.res.flatMap (bytesLE 2)),
   (4, bytesLE 4092 (b2n (x.b == 2) + 256 * b2n cold)), (0, bytesLE 4 f)]

/-- What keeps the codec engines from writing a page of a context at its home (R325, R381). -/
def State.codecBad (s : State) (ctx va : Nat) : Option SrcBad :=
  match s.agentPhys ctx va true with
  | .ok pa => if pa < deviceEnd then none else some .right
  | .error b => some b

/-- Bytes put at their homes, in the n pages that an address begins (R325). -/
def State.codecPages (s : State) (ctx : Nat) : Nat → Nat → List Byte → State
  | 0, _, _ => s
  | n + 1, va, l =>
    if l = [] then s else
    let k := 4096 - va % 4096
    let s' := match s.agentPhys ctx va true with
      | .ok pa => s.homePuts pa (l.take k)
      | .error b => s.agentFails ctx b
    s'.codecPages ctx n (va + k) (l.drop k)

/-- Bytes put at their homes (R325). -/
def State.codecPuts (s : State) (ctx va : Nat) (l : List Byte) : State :=
  s.codecPages ctx (l.length / 4096 + 2) va l

/-- n bytes of a context's memory read at their homes, line by line (R325, R381). -/
def State.codecRead (s : State) (ctx va n : Nat) : Except SrcBad State :=
  (List.range (cdiv (va % 128 + n) 128)).foldlM (fun s j =>
    (s.agentAt ctx (va / 128 * 128 + 128 * j) false).map Prod.snd) s

/-- Bytes of the bitstream that an engine may read (R326). -/
def Stream.avail (x : Stream) : Nat := (x.bsWrite + 2 ^ 32 - x.bsRead) % 2 ^ 32

/-- Address of byte o of the bitstream (R326). -/
def bsAt (d : StreamDesc) (o : Nat) : Nat := d.bsbase + o % 2 ^ d.bslog

/-- n bytes of the bitstream from READ on read at their homes, line by line (R325, R326, R381). -/
def State.bitstream (s : State) (x : Stream) (n : Nat) : Except SrcBad State :=
  (List.range (cdiv (x.bsRead % 128 + n) 128)).foldlM (fun s j =>
    (s.agentAt x.ctx (bsAt x.desc (x.bsRead / 128 * 128 + 128 * j)) false).map Prod.snd) s

/-! ### Regions -/

/-- First and last input pixel, along one axis, of the region of tile i (R332): stride, halo, tile, input size. -/
def regionSpan (st halo i n : Nat) : Option (Nat × Nat) :=
  let lo := st * 16 * i - halo
  if lo < n then some (lo, min (n - 1) (st * (16 * i + 15) + halo)) else none

/-- Row-major cells, u pixels wide and high and c in a row, that a rectangle of pixels overlaps. -/
def cellsOver (u c : Nat) (x y : Nat × Nat) : List Nat :=
  (List.range (y.2 / u + 1 - y.1 / u)).flatMap (fun j =>
    (List.range (x.2 / u + 1 - x.1 / u)).map (fun i => (y.1 / u + j) * c + (x.1 / u + i)))

/-- Stride in pixels, and tiles in a row and in all, of a layer (Table 16.5, R332). -/
def lyStride (l : LayerDesc) : Nat := 2 ^ l.s
def lyTc (l : LayerDesc) : Nat := cdiv l.w 16
def lyTiles (l : LayerDesc) : Nat := (lyTc l) * cdiv l.h 16

/-- Cells of the input that the region of a tile overlaps, none where it is empty after clipping: cell size, cells in a
row, and input size (R332). -/
def lyInputs (l : LayerDesc) (t u c iw ih : Nat) : Option (List Nat) :=
  match regionSpan (lyStride l) l.halo (t % (lyTc l)) iw, regionSpan (lyStride l) l.halo (t / (lyTc l)) ih with
  | some x, some y => some (cellsOver u c x y)
  | _, _ => none

/-! ### Decisions -/

/-- A motion that divides by q in both components. -/
def divMotion (q : Int) (m : Int × Int) : Option (Int × Int) :=
  if m.1 % q = 0 ∧ m.2 % q = 0 then some (m.1 / q, m.2 / q) else none

/-- The one value of a list that is not empty. -/
def agreed {α : Type} [DecidableEq α] : List α → Option α
  | [] => none
  | a :: l => if l.all (· == a) then some a else none

/-- The vector of a motion entry, none for NOVEC (R329). -/
def mvOf (x : Nat) : Option (Int × Int) :=
  if fld x 0 16 = 0x8000 then none else some (sextInt 16 (fld x 0 16), sextInt 16 (fld x 16 16))

/-- Motion and change of a tile of layer 0 (R334). -/
def lyFigures0 (l : LayerDesc) (d : StreamDesc) (x : Delivered) (t : Nat) : Option (Int × Int) × Nat :=
  match lyInputs l t 8 (sdBw d) d.w d.h with
  | none => (some (0, 0), 0)
  | some bs =>
    let m := (agreed (bs.map (fun b => mvOf (lget x.mv b 0x8000)))).bind id
    (m.bind (divMotion (4 * ((lyStride l) : Int))), min 0xFFFF (bs.map (fun b => lget x.res b 0)).sum)

/-- Result of a decided tile for the layer above (R335): its motion and its change. -/
def TileDec.result (rpt : Nat) (u : TileDec) : (Int × Int) × Nat :=
  if u.act = 0 then ((0, 0), if rpt = 0 then 0xFFFF else u.d)
  else if u.act = 1 then ((u.mx, u.my), 0)
  else ((0, 0), 0)

/-- Motion and change of a tile of a deeper layer (R335), from the layer below. -/
def lyFigures (l below : LayerDesc) (us : List TileDec) (t : Nat) : Option (Int × Int) × Nat :=
  match lyInputs l t 16 (lyTc below) below.w below.h with
  | none => (some (0, 0), 0)
  | some ds =>
    let rs := ds.map (fun u => (lget us u { act := 0 }).result below.rpt)
    ((agreed (rs.map Prod.fst)).bind (divMotion ((lyStride l) : Int)), (rs.map Prod.snd).foldl max 0)

/-- Tiles that the rectangle of a tile, moved by m, overlaps, none where it does not lie wholly inside the map or m does
not fit its 7 bits (R336). -/
def lySources (l : LayerDesc) (t : Nat) (m : Int × Int) : Option (List Nat) :=
  let x := (16 * (t % (lyTc l)) : Nat) + m.1
  let y := (16 * (t / (lyTc l)) : Nat) + m.2
  if m = (0, 0) then some [t]
  else if 0 ≤ x ∧ x + 15 < (l.w : Int) ∧ 0 ≤ y ∧ y + 15 < (l.h : Int)
      ∧ -64 ≤ m.1 ∧ m.1 ≤ 63 ∧ -64 ≤ m.2 ∧ m.2 ≤ 63 then
    some (cellsOver 16 (lyTc l) (x.toNat, x.toNat + 15) (y.toNat, y.toNat + 15))
  else none

/-- The action and new state of one tile (R336); err marks a comparison that an error has turned round (R388). -/
def lyDecide (l : LayerDesc) (cold : Bool) (thresh refresh : Nat) (old : List TileDec) (err : Bool) (t : Nat)
    (f : Option (Int × Int) × Nat) : TileDec :=
  match cold, f.1 with
  | false, some m =>
    match lySources l t m with
    | some src =>
      let acc := min 0xFFFF ((src.map (fun u => (lget old u { act := 0 }).acc)).foldl max 0 + f.2)
      let age := (src.map (fun u => (lget old u { act := 0 }).age)).foldl max 0 + 1
      if (decide (thresh < acc) || decide (refresh ≤ age)) != err then { act := 0 }
      else { act := if m = (0, 0) then 2 else 1, mx := m.1, my := m.2, acc := acc, age := age }
    | none => { act := 0 }
  | _, _ => { act := 0 }

/-- Address of the tile states of a layer: 8 bytes for each tile, layer after layer (R325, R333). -/
def tsAt (d : StreamDesc) (layer : Nat) : Nat := d.tsbase + 8 * ((d.layers.take layer).map lyTiles).sum

/-- The decision of a layer for a frame. -/
def Stream.decOf (x : Stream) (layer frame : Nat) : Option LayerDec :=
  x.decs.find? (fun d => d.layer == layer && d.frame == frame)

/-- The old tile states of a layer read for the decision of a frame: a line that cannot be read, or a page that is poisoned,
ends it (R333, R336, R381). DESIGN CHOICE (assumption 77): one that the context does not reach is no matter. -/
def State.readStates (s : State) (x : Stream) (layer frame : Nat) : Except SrcBad State :=
  if frame = 0 ∨ (x.decOf layer (frame - 1)).isNone = true then .ok s else
  match s.codecRead x.ctx (tsAt x.desc layer) (8 * ((x.desc.layers[layer]?).map lyTiles).getD 0) with
  | .error .walk | .error .right => .ok s
  | r => r

/-- A layer of a frame decided from its tiles' figures (R336); err names a tile whose comparison is wrong (R388). -/
def Stream.decide (x : Stream) (layer frame : Nat) (err : Option Nat) (figures : Nat → Option (Int × Int) × Nat) : Stream :=
  match x.desc.layers[layer]? with
  | none => x
  | some l =>
    let old := match frame with
      | 0 => []
      | f + 1 => ((x.decOf layer f).map (·.tiles)).getD []
    let tiles := (List.range (lyTiles l)).map (fun t =>
      lyDecide l (x.colds.contains frame) (lget x.thresh layer 0) (lget x.refresh layer 1) old (err == some t) t
        (figures t))
    { x with decs := x.decs ++ [{ layer := layer, frame := frame, tiles := tiles }] }

/-- Every recomputed tile of a decided layer has its reports (R337, R338). -/
def LayerDec.reported (rpt : Nat) (d : LayerDec) : Bool := d.tiles.all (fun u => u.act != 0 || decide (rpt ≤ u.reps))

/-- The frame whose decision of a layer may be made next (R338). -/
def Stream.nextFor (x : Stream) (layer : Nat) : Option Nat :=
  match layer with
  | 0 => none
  | below + 1 =>
    (x.decs.find? (fun d => d.layer == below && (x.decOf layer d.frame).isNone
      && (d.frame == x.base || (x.decOf layer (d.frame - 1)).isSome)
      && d.reported (((x.desc.layers[below]?).map (·.rpt)).getD 0))).map (·.frame)

/-! ### Launches of a stream -/

/-- The first stage of a context's pipeline with a trigger, and its number (R347, R352). -/
def State.trigStages (s : State) (c : Nat) (p : Stage → Bool) : List (Nat × Stage) :=
  match (s.ctx c).inst with
  | none => []
  | some (img, _, _) =>
    ((((s.imageOf img).map (·.stages)).getD []).mapIdx (fun i x => (i, x))).filter (fun q => p q.2)

/-- The record that the scheduler builds for a frame or list launch (R347, R353, R366). -/
def State.ownRecord (s : State) (c f src s4 layers : Nat) (q : Nat × Stage) : TaskRec :=
  let (img, arg) := match (s.ctx c).inst with
    | some (i, _, a) => (i, a)
    | none => (0, 0)
  { flags := q.2.flags, n := q.2.gang % 64, place := q.2.gang / 64, stage := q.1, banks := q.2.banks, ctx := c
    image := img, arg := arg, v0 := f, wst := q.2.wst, src := src, s4 := s4, frame := f, layers := layers }

/-- A frame or list launch, checked as any record (R349); the entry of its frame is held until the task ends (R331). -/
def State.ownLaunch (s : State) (i c f src s4 layers : Nat) (q : Nat × Stage) : State :=
  let t := s.ownRecord c f src s4 layers q
  if (s.ctx c).fenced = true ∨ s.taskFits t = false then s.refuse src c t.image 0 f
  else (s.modStream i (fun x => { x with busy := f :: x.busy })).arrive t none 0

/-- The list launches of a decided layer (R347). -/
def State.listLaunches (s : State) (i c f layer layers : Nat) : State :=
  (s.trigStages c (fun x => x.trig == 2 && x.layer == layer)).foldl
    (fun s q => s.ownLaunch i c f 3 layer layers q) s

/-- The frame launches of a delivered frame (R331). -/
def State.frameLaunches (s : State) (i c f entry layers : Nat) : State :=
  (s.trigStages c (fun x => x.trig == 1)).foldl (fun s q => s.ownLaunch i c f 2 entry layers q) s

/-! ### Guard zones -/

/-- A guard register's zone trips (R345): its tiles are those of layer 0, given with their changes. -/
def zoneTrips (tc g : Nat) (xs : List Nat) : Bool :=
  bit g 63 && (xs.mapIdx (fun t x => decide (fld g 0 8 ≤ t % tc) && decide (t % tc ≤ fld g 16 8)
    && decide (fld g 8 8 ≤ t / tc) && decide (t / tc ≤ fld g 24 8) && decide (fld g 32 16 < x))).any id

/-- Mask of the zones that trip. -/
def Stream.zones (x : Stream) (tc : Nat) (xs : List Nat) : Nat :=
  (x.guards.mapIdx (fun n g => if zoneTrips tc g xs then 2 ^ n else 0)).sum

/-! ### Events -/

/-- BITSTREAM_WRITE (R326): a value that overfills the buffer is refused and sets OVR. -/
def execBitstreamWrite (stream val : Nat) (s : State) : Host.Outcome State Fault Refusal :=
  .next (s.modStream stream (fun x =>
    if 2 ^ x.desc.bslog < (val % 2 ^ 32 + 2 ^ 32 - x.bsRead) % 2 ^ 32 then { x with ovr := true }
    else { x with bsWrite := val % 2 ^ 32 }))

/-- A frame may be delivered now (R326, R327, R331, R363); the first one has no picture before it to refer to (R327). -/
def State.canDeliver (s : State) (x : Stream) (f : Nat) (data : FrameData) : Bool :=
  !x.paused && (!x.resync || data.key) && (x.delivered || allIntra data) && frameFits x.desc data
    && decide (data.consumed ≤ x.avail) && x.busy.all (fun g => g % x.desc.f != f % x.desc.f)
    && s.sched.heldLaunch.all (fun t => t.ctx != x.ctx)

/-- What keeps the entry of a frame from being written (R331, R381). -/
def State.entryBad (s : State) (x : Stream) (f : Nat) (data : FrameData) : Option SrcBad :=
  (List.range (cdiv (sdEntryBytes x.desc (sdSample x.desc data.deep)) 4096)).findSome? (fun i =>
    s.codecBad x.ctx (sdEntryAt x.desc f + 4096 * i))

/-- The stream once a frame is delivered and its layer 0 is decided (R331, R340). -/
def Stream.deliver (x : Stream) (f consumed : Nat) (err : Option Nat) (data : Delivered) : Stream :=
  let cold := x.cold || !x.delivered
  let x := { x with
    frame := f, delivered := true, cold := false, resync := false, bsRead := (x.bsRead + consumed) % 2 ^ 32
    colds := if cold then f :: x.colds else x.colds }
  match x.desc.layers[0]? with
  | none => x
  | some l => x.decide 0 f err (lyFigures0 l x.desc data)

/-- The tile whose comparison an error in a stream's change-mask comparators has turned round, any one of n (R388). -/
def State.wrongTile (s : State) (i n : Nat) : Option Nat :=
  if s.struck (.changes i) then some (Config.freeBits (s.free * 2 ^ 20 + 2 ^ 18) % n) else none

/-- The tile state of a decided layer written to the tile-state area (R325, R333). -/
def State.tileStates (s : State) (x : Stream) (layer frame : Nat) : State :=
  s.codecPuts x.ctx (tsAt x.desc layer) ((((x.decOf layer frame).map (·.tiles)).getD []).flatMap (fun u =>
    bytesLE 8 (Config.tileState u.age u.acc).toNat))

/-- A layer of a stream that has been decided: its tile state is kept, and an error of the comparators is spent. -/
def State.decided (s : State) (i layer frame : Nat) : State :=
  match s.stream i with
  | none => s
  | some x => (s.tileStates x layer frame).spent (.changes i)

/-- A delivered frame's effects (R331): the entry, the decision of layer 0, the guard zones, then the launches. -/
def State.deliver (s : State) (i : Nat) (x : Stream) (f consumed : Nat) (data : Delivered) : State :=
  let at0 := sdEntryAt x.desc f
  let s := (entryPieces x.desc f (x.cold || !x.delivered) data).foldl (fun s p => s.codecPuts x.ctx (at0 + p.1) p.2) s
  let l0 := lget x.desc.layers 0 default
  let s := (s.modStream i (fun x => x.deliver f consumed (s.wrongTile i (lyTiles l0)) data)).decided i 0 f
  let xs := (List.range (lyTiles l0)).map (fun t => (lyFigures0 l0 x.desc data t).2)
  let z := x.zones (lyTc l0) xs
  let s := if z = 0 then s else s.parapetTrigger z
  let n := x.desc.layers.length
  (s.frameLaunches i x.ctx f at0 n).listLaunches i x.ctx f 0 n

/-- FRAME_DELIVERY (R326, R331). An entry, a bitstream or tile states that cannot be used are contained instead (R381). -/
def execFrameDelivery (stream : Nat) (data : FrameData) (s : State) : Host.Outcome State Fault Refusal :=
  match s.stream stream with
  | none => .next s
  | some x =>
    let f := if x.delivered then x.frame + 1 else 0
    if s.canDeliver x f data = false then .next s else
    match s.entryBad x f data with
    | some b => .next (s.agentFails x.ctx b)
    | none =>
    match (s.bitstream x data.consumed).bind (fun s => s.readStates x 0 f) with
    | .error b => .next (s.agentFails x.ctx b)
    | .ok s =>
      let d := delivered x.desc data
      if s.struck (.codec stream) then
        .next ((s.spent (.codec stream)).deliver stream x f data.consumed (d.wrong s.free))
      else .next (s.deliver stream x f data.consumed d)

/-- The function that a stream is assigned to, and its vector among all (R417, R422). -/
def State.streamOwner (s : State) (x : Stream) : Nat := x.owner.getD (s.ctx x.ctx).owner
def State.streamVec (s : State) (x : Stream) : Nat := vecOf (s.streamOwner x) x.vec

/-- DECODE_ERROR (R327): the engine passes over what it could not decode, any number of the bytes it may read, and looks for
the next random-access point. -/
def execDecodeError (stream : Nat) (s : State) : Host.Outcome State Fault Refusal :=
  match s.stream stream with
  | none => .next s
  | some x =>
    if x.paused then .next s else
    let n := Config.freeBits (s.free * 2 ^ 20 + 2 ^ 17) % (x.avail + 1)
    .next ((s.modStream stream (fun x => { x with
      err := true, cold := true, resync := true, bsRead := (x.bsRead + n) % 2 ^ 32 })).msix (s.streamVec x))

/-- A codec engine passes over bytes on its way to a random-access point (R327). -/
def State.codecSkip (s : State) (stream n : Nat) : State :=
  s.modStream stream (fun x =>
    if x.resync && !x.paused && decide (n ≤ x.avail) then { x with bsRead := (x.bsRead + n) % 2 ^ 32 } else x)

/-- LAYER_DECISION (R335 to R338). -/
def execLayerDecision (stream layer : Nat) (s : State) : Host.Outcome State Fault Refusal :=
  match s.stream stream with
  | none => .next s
  | some x =>
    match x.nextFor layer, x.desc.layers[layer]?, x.desc.layers[layer - 1]? with
    | some f, some l, some below =>
      let us := ((x.decOf (layer - 1) f).map (·.tiles)).getD []
      match s.readStates x layer f with
      | .error b => .next (s.agentFails x.ctx b)
      | .ok s =>
      let s := (s.modStream stream (fun x => x.decide layer f (s.wrongTile stream (lyTiles l)) (lyFigures l below us))).decided
        stream layer f
      .next (s.listLaunches stream x.ctx f layer x.desc.layers.length)
    | _, _, _ => .next s

/-! ### Delta reports -/

/-- A report counted on its tile, or stray (R337). -/
def Stream.report (x : Stream) (frame : Option Nat) (layer tile d : Nat) : Stream :=
  let stray := { x with stray := satAdd 0xFFFF x.stray 1 }
  match frame with
  | none => stray
  | some f =>
    if layer + 1 = x.desc.layers.length then x else
    let rpt := ((x.desc.layers[layer]?).map (·.rpt)).getD 0
    let u := ((x.decOf layer f).bind (fun e => e.tiles[tile]?)).getD { act := 2 }
    if u.act = 0 ∧ u.reps < rpt then
      { x with decs := x.decs.map (fun e =>
          if e.layer = layer ∧ e.frame = f then
            { e with tiles := lmod e.tiles tile (fun u => { u with reps := u.reps + 1, d := max u.d d }) }
          else e) }
    else stray

/-- A delta report of a task (R337); one from a task of no stream is ignored. -/
def State.deltaReport (s : State) (t : TaskRec) (layer tile d : Nat) : State :=
  match s.streamOf t.ctx with
  | none => s
  | some (i, _) => s.modStream i (fun x => x.report (if t.src = 2 ∨ t.src = 3 then some t.frame else none) layer tile d)

/-! ### Tile lists -/

/-- The list of a decided layer (R341, Table 12.3). -/
def LayerDec.list (e : LayerDec) : List Nat :=
  (e.tiles.mapIdx (fun t u => (t, u))).filterMap (fun p =>
    if p.2.act = 0 then some p.1
    else if p.2.act = 1 then
      some (p.1 + 2 ^ 16 + 2 ^ 18 * wrapInt 7 p.2.mx + 2 ^ 25 * wrapInt 7 p.2.my)
    else none)

/-- Bytes of a list at its destination: the header double and up to K entries (R266). -/
def listImage (e : LayerDec) (cap : Nat) : List Byte :=
  let es := e.list.take cap
  bytesLE 8 (2 ^ 63 + 2 ^ 62 * b2n (decide (cap < e.list.length)) + 2 ^ 32 * (e.frame % 2 ^ 16) + es.length)
    ++ es.flatMap (bytesLE 4)

/-- CMLIST_LIST_WRITE (R266): an outstanding request whose layer is decided. -/
def execCmlistListWrite (core i : Nat) (s : State) : Host.Outcome State Fault Refusal :=
  let t := s.strand core
  match t.cml[i]? with
  | none => .next s
  | some c =>
    match (s.streamOf t.task.ctx).bind (fun p => p.2.decOf c.layer c.frame) with
    | none => .next s
    | some e =>
      match s.spadPuts core (fld c.dst 0 48 % 0x80000) (listImage e (fld c.dst 48 16)) with
      | .ok s => .next (s.modStrand core (fun t => { t.tokDown c.tok with cml := ldel t.cml i }))
      | .error (.fault f) => .next (takeFault { f with engine := 3, text := t.ec.pc, precise := false } { s with cur := core })
      | .error _ => .next s

end Sys2Proof.Machine
end

