-- ==== Sys2Proof/Machine/Commit.lean ====
section
/-! DEFINITION. How operations land and how a strand ends: memory returns, performed stores, the commit step, held effects,
the halt bundle and the limits on time (spec/05 R102, spec/07 R147, spec/17 R368 to R371, spec/18 R386). -/

namespace Sys2Proof.Machine

/-! ### COMMIT and HALT -/

/-- S has issued COMMIT or HALT: Keystone keeps the group it has already matched at its oldest word and looks ahead no
further (R312). A group past a COMMIT issues once that word has completed. -/
def State.keepMatch (s : State) : State :=
  let p := match s.keyDecide with
    | .none => none
    | .wait g => some g.slot
    | .take g => some g.slot
  s.modSt (fun t => { t with ks := { t.ks with pend := p } })

/-- HALT (R371): S stops; the commit step follows if the gang has not committed. -/
def execHalt (s : State) : Host.Outcome State Fault Refusal :=
  .next (s.keepMatch.modSt (fun t => { t with
    halted := true, issued := true, stall := 0
    commit := if t.commit = .run then .drain else t.commit
    commitPos := if t.commit = .run then t.es.pc else t.commitPos }))

/-- COMMIT (R368): S waits at the word until the commit step of its gang has been applied, which retires it. -/
def execCommit (s : State) : Host.Outcome State Fault Refusal :=
  outcome .s s (match s.st.commit with
    | .done => raiseF .illegalOperand
    | .drain => .error .stall
    | .run => .error (.hold (s.keepMatch.modSt (fun t =>
        { t with commit := .drain, commitPos := t.es.pc, issued := true, stall := 0 }))))

/-! ### Operations landing -/

/-- A return's bits written: the register and what an early reader of an older result would get (R101, R102). -/
def Strand.land (t : Strand) (r : Ret) : Strand :=
  let fix (u : HzUnit) : List Hazard := t.hz.map (fun h =>
    if h.unit == u then { h with old := mix h.old r.val r.mask } else h)
  match r.dst with
  | .none => t
  | .s n => { t with
      regs := { t.regs with s := lmod t.regs.s n (fun x => BitVec.ofNat 64 (mix x.toNat r.val r.mask)) }
      hz := fix (.s n) }
  | .v n => { t with
      regs := { t.regs with v := lmod t.regs.v n (fun x => BitVec.ofNat 1024 (mix x.toNat r.val r.mask)) }
      hz := fix (.v n) }
  | .t n => { t with
      regs := { t.regs with t := lmod t.regs.t n (fun x => BitVec.ofNat 65536 (mix x.toNat r.val r.mask)) }
      hz := fix (.t n) }

/-- Returns issued before one that has landed no longer write the bits it wrote. -/
def overtaken (r : Ret) (l : List Ret) : List Ret :=
  l.map (fun x => if x.dst == r.dst && x.eng == r.eng then { x with mask := x.mask - (x.mask &&& r.mask) } else x)

/-- A strand whose return i lands (R102). -/
def Strand.return (t : Strand) (i : Nat) : Strand :=
  match t.rets[i]? with
  | none => t
  | some r => ({ t.land r with rets := overtaken r (t.rets.take i) ++ t.rets.drop (i + 1) }).tokDown r.tok

/-- The loads up to one that lands, of its engine and class, have performed (R229). -/
def Strand.performedTo (t : Strand) (i : Nat) : Strand :=
  match t.rets[i]? with
  | none => t
  | some r => { t with rets := t.rets.mapIdx (fun j x =>
      if j ≤ i ∧ x.eng = r.eng ∧ x.cls = r.cls then { x with src := [] } else x) }

/-- Where a return lands, for the bit errors of what it overwrites whole in a context (R387). -/
def Ret.covers (core : Nat) (r : Ret) : List UpsetPlace :=
  match r.dst with
  | .s n => [.scalar core n]
  | .v n => if r.mask = ones 1024 then [.vector core n] else []
  | .t n => if r.mask = tileOnes then [.tile core n] else []
  | .none => []

/-- Bit errors of registers that a return overwrites are gone (R387). -/
def State.dropCovered (s : State) (core i : Nat) : State :=
  match (s.strand core).rets[i]? with
  | none => s
  | some r => if s.upsets.isEmpty then s else { s with upsets := s.upsets.filter (fun u => !(r.covers (s.regCtx core)).contains u.place) }

/-- MEMORY_RETURN (R102, R103): a return lands; returns land in any order. -/
def execMemoryReturn (core i : Nat) (s : State) : Host.Outcome State Fault Refusal :=
  .next ((s.dropCovered core i).modStrand core (fun t => (t.performedTo i).return i))

/-- An earlier store of the same engine and class has not performed (R229). -/
def Strand.storeBehind (t : Strand) (i : Nat) (p : PStore) : Bool :=
  (t.psts.take i).any (fun x => x.eng == p.eng && x.cls == p.cls)

/-- A store may still land where it was checked: a tile must still be open to its gang (R207). -/
def State.storeOk (s : State) (gang : Nat) (w : Target × Byte) : Bool :=
  match w.1 with
  | .tile c o => match slotAt (s.cluster (clusterOf c)).parts c (o / 4096) with
    | some x => x.st == .opened && x.gang == gang
    | none => false
  | _ => true

/-- The bytes of a store performed one after another; the bits that one leaves alone are read at its place (R167). -/
def State.perform (s : State) (core : Nat) (p : PStore) : List (Target × Byte) → Res State
  | [] => .ok s
  | w :: l => do
    let (b, s) ← (match p.part.find? (fun x => x.1 == w.1) with
      | none => .ok (w.2, s)
      | some x => do
        let (bs, s) ← s.readTarget core w.1 1 p.cls
        pure (BitVec.ofNat 8 (mix (natLE bs) w.2.toNat x.2), s))
    (s.writeTarget core w.1 p.cls [b]).perform core p l

/-- A list cut into pieces of given lengths, the rest last. -/
def cutUp {α : Type} : List Nat → List α → List (List α)
  | [], l => if l.isEmpty then [] else [l]
  | n :: ns, l => l.take n :: cutUp ns (l.drop n)

/-- The elements of a store performed one after another: a strand that waits on a word sees each (R195). -/
def State.performEach (s : State) (core : Nat) (p : PStore) : List (List (Target × Byte)) → Res State
  | [] => .ok s
  | [w] => s.perform core p w
  | w :: l => do
    let s ← s.perform core p w
    s.watch.performEach core p l

/-- The runs of bytes that a store writes, for the bit errors of the words they lie in (R189). -/
def runsOf : List (Target × Byte) → List (Target × Nat)
  | [] => []
  | w :: l => match runsOf l with
    | (t, n) :: r => if w.1.plus 1 = t then (w.1, n + 1) :: r else (w.1, 1) :: (t, n) :: r
    | [] => [(w.1, 1)]

/-- Cores whose tiles a store writes, each once. -/
def tileCores (l : List (Target × Byte)) : List Nat :=
  l.foldl (fun acc w => match w.1 with
    | .tile c _ => if acc.contains c then acc else c :: acc
    | _ => acc) []

/-- A pending store's bytes reach their places (R189, R229); a gated core whose tiles it writes wakes first (R402). -/
def State.performAll (s : State) (core : Nat) (p : PStore) : Res State := do
  let s ← (tileCores p.writes).foldlM State.peerWake s
  let s ← (if s.upsets.isEmpty then .ok s else (runsOf p.writes).foldlM (fun s r => s.scrubW r.1 r.2) s)
  s.performEach core p (cutUp p.cuts p.writes)

/-- STORE_PERFORMED (R110, R147, R181, R295). -/
def execStorePerformed (core i : Nat) (s : State) : Host.Outcome State Fault Refusal :=
  let t := s.strand core
  match t.psts[i]? with
  | none => .next s
  | some p =>
    if t.storeBehind i p = true then .next s
    else if p.writes.all (s.storeOk t.gang) = false then
      .next (takeFault { code := .permission, engine := engNo p.eng, text := p.text, precise := false }
        { s with cur := core })
    else
      match s.performAll core p with
      | .error (.fault f) =>
        .next (takeFault { f with engine := engNo p.eng, text := p.text, precise := false } { s with cur := core })
      | .error _ => .next s
      | .ok s =>
      .next (s.modStrand core (fun t =>
        let t := { (t.fixed p.eng (· == p.cls)) with psts := ldel t.psts i }
        match p.tok with
        | some w => t.tokDown w
        | none => t))

/-! ### The commit step -/

/-- A command of a core lies in some Girder queue. -/
def State.girderBusy (s : State) (k : Nat) : Bool :=
  s.clusters.any (fun (c : Cluster) => c.gir.queue.any (fun x => match x with
    | .cmd g => g.core == k
    | .marker _ => false))

/-- Every operation that a strand issued has completed (R368 step 2). -/
def State.opsDone (s : State) (k : Nat) : Bool :=
  let t := s.strand k
  t.regs.w.all (· == 0) && t.rets.isEmpty && t.psts.isEmpty && t.cml.isEmpty && t.deltaOut == 0
    && (s.core k).ldq.isEmpty && (s.core k).stq.isEmpty && !s.girderBusy k

/-- An engine has issued every word before the COMMIT, or is idle (R368 step 1). -/
def State.enginePast (s : State) (k : Nat) (e : Eng) : Bool :=
  let t := s.strand k
  match ownFrom (s.text k) e (t.eng e).pc with
  | none => true
  | some off => t.beyond e off

/-- A member has reached step 2 of R368. -/
def State.memberReady (s : State) (k : Nat) : Bool :=
  let t := s.strand k
  t.live && !t.stopped && t.commit == .drain && s.enginePast k .v && s.enginePast k .m && s.enginePast k .c && t.ks.window.isEmpty
    && s.opsDone k

/-- Provisional decrements of a gang in member order, with the core of each (R210). -/
def State.gangDecs (s : State) (g : Gang) : List (Nat × Decr) :=
  g.members.flatMap (fun m => (s.strand m.core).decs.map (fun d => (m.core, d)))

/-- The slot that a decrement names. -/
def State.decrSlot (s : State) (d : Decr) : Option Slot :=
  ((s.cluster (clusterOf d.core)).parts.flatMap (·.slots)).find? (fun x => x.core == d.core && x.unit == d.unit)

/-- The core of the first decrement that fails: its handle is stale or the count is spent (R210). -/
def State.caissonFails (s : State) : List Decr → List (Nat × Decr) → Option Nat
  | _, [] => none
  | seen, (k, d) :: l =>
    match s.decrSlot d with
    | none => some k
    | some x =>
      if x.gen ≠ d.gen ∨ x.count ≤ (seen.filter (· == d)).length then some k else s.caissonFails (d :: seen) l

/-- A slot after its gang's commit (R210). -/
def Slot.commit (x : Slot) (id : Nat) (ds : List Decr) : Slot :=
  let n := (ds.filter (fun d => d.core == x.core && d.unit == x.unit && d.gen == x.gen)).length
  if x.gang = id ∧ (x.st = .opened ∨ x.st = .pending ∧ x.give = true) then x.release else
  let x := if x.gang = id ∧ x.st = .pending then { x with st := .sealed, gang := 0 } else x
  if n = 0 then x else if x.count - n = 0 then x.release else { x with count := x.count - n }

/-- The Caisson effects of a gang (R210). -/
def State.caissonCommit (s : State) (id : Nat) (ds : List Decr) : State :=
  { s with clusters := s.clusters.map (fun (c : Cluster) => { c with
      parts := c.parts.map (fun (p : Partition) => { p with slots := p.slots.map (fun x => x.commit id ds) }) }) }

/-- One extent flipped (R240): its selector, and the lines and apertures that showed it. -/
def State.flipExtent (s : State) (ctx : Nat) (w : WEntry) : State :=
  match (s.ctx ctx).buf w.buf with
  | none => s
  | some b =>
    let n := extBytes b.desc
    let old := extPhys b.desc (lget b.sel w.ext false) w.ext
    let new := extPhys b.desc (!(lget b.sel w.ext false)) w.ext
    let s := s.modCtx ctx (fun c => { c with bufs := c.bufs.map (fun x =>
      if x.handle = w.buf then { x with sel := lmod x.sel w.ext (fun a => !a) } else x) })
    ((s.dropLines new (new + n)).touch old n).touch new n

/-- The flip of a gang's write set: each buffer touched gets one version more (R240). -/
def State.flip (s : State) (ctx : Nat) (ws : List WEntry) : State :=
  let s := s.modCtx ctx (fun c => { c with bufs := c.bufs.map (fun b =>
    if ws.any (fun w => w.buf == b.handle) then { b with version := b.version + 1 } else b) })
  ws.foldl (fun s w => s.flipExtent ctx w) s

/-- WST_READY set for the regions that a member wrote (R228). -/
def State.wstReady (s : State) (k : Nat) : State :=
  s.modDie (dieOf (clusterOf k)) (fun d => { d with
    ready := (s.strand k).wstWritten.foldl (fun r m => setFld r m 1 1) d.ready })

/-- The place of a held effect in the order of R370. -/
def Held.rank : Held → Nat
  | .sgw _ _ | .dec _ => 0
  | .delta _ _ _ => 1
  | .cmu _ _ => 2
  | .spawn _ _ => 3

/-- The held effects of a gang's members in the order of R370: kind by kind, and within a kind in the order in which they
were held. -/
def State.heldOf (s : State) (g : Gang) : List HeldFx :=
  let l := g.members.flatMap (fun m =>
    let t := s.strand m.core
    (t.held.zip t.heldAt).map (fun p => (p.2, { gang := g.id, core := m.core, task := t.task, h := p.1 : HeldFx })))
  [0, 1, 2, 3].flatMap (fun r => (lsort Prod.fst (l.filter (fun p => p.2.h.rank == r))).map Prod.snd)

/-- One held effect applied (R370); what acts on a fenced context is dropped or refused (R382). -/
def State.applyHeld (s : State) (f : HeldFx) : State :=
  let c := f.task.ctx
  let off := (s.ctx c).fenced
  match f.h with
  | .sgw o v =>
    if (s.strand f.core).live = true ∧ (s.strand f.core).gang = f.gang then
      match s.spadPuts f.core o (bytesLE 8 v) with
      | .ok s => s
      | .error (.fault x) => takeFault { x with engine := 5, precise := false } { s with cur := f.core }
      | .error _ => s
    else s
  | .dec id => if off then s else s.decrement ((s.ctx c).dbase + id) 1
  | .delta layer tile d => if off then s else s.deltaReport f.task layer tile d
  | .cmu idx v => if off then s else
    (match s.streamOf c with
    | some (i, _) => s.modStream i (fun x => x.cmuWrite idx v)
    | none => s)
  | .spawn r a => s.record r 1 a false

/-- The scheduler applies the next held effect of the gangs that have committed (R370). -/
def State.heldStep (s : State) : State :=
  match s.sched.fx with
  | [] => s
  | f :: l => (s.modSched (fun d => { d with fx := l })).applyHeld f

/-- Held effects of a strand still wait (R371). -/
def State.fxLeft (s : State) (k : Nat) : Bool :=
  s.sched.fx.any (fun f => f.core == k && f.gang == (s.strand k).gang)

/-- A member's strand in the post-commit region: the COMMIT word has completed (R368, R370). -/
def Strand.committed (t : Strand) (now : Nat) : Strand :=
  { t with
    commit := .done, commitAt := now, decs := [], held := [], heldAt := [], wstWritten := [], issued := true, stall := 0
    es := if t.halted then t.es else t.es.step now }

/-- A release at .device for every member (R240); the first one that meets an error it cannot correct is named. -/
def State.releaseAll : List Nat → State → Option (Nat × Exc) × State
  | [], s => (none, s)
  | k :: l, s => match s.releaseBy k .device with
    | .ok s => State.releaseAll l s
    | .error x => (some (k, x), s)

/-- The commit step of a gang whose members are all ready (R369): its held effects wait in their order (R370). -/
def State.commitGang (s : State) (g : Gang) : State :=
  let ks := g.members.map (·.core)
  match State.releaseAll ks s with
  | (some (k, x), s) => x.state .s { s with cur := k }
  | (none, s) =>
  let ds := s.gangDecs g
  match s.caissonFails [] ds with
  | some k =>
    takeFault { code := .caissonCount, cause := 4, text := (s.strand k).commitPos } { s with cur := k }
  | none =>
    let s := s.caissonCommit g.id (ds.map Prod.snd)
    let s := ks.foldl (fun s k => s.wstReady k) s
    let s := s.flip g.task.ctx g.wset
    let s := s.modGang g.id (fun g => { g with committed := true, wset := [], wants := [] })
    let s := s.modSched (fun d => { d with fx := d.fx ++ s.heldOf g })
    ks.foldl (fun s k => s.modStrand k (fun t => t.committed s.now)) s

/-- COMMIT_STEP (R369); gang 0 is the Parapet's. -/
def execCommitStep (gang : Nat) (s : State) : Host.Outcome State Fault Refusal :=
  match s.gang gang with
  | none => .next s
  | some g =>
    if g.committed = false ∧ g.members.all (fun m => s.memberReady m.core) = true then .next (s.commitGang g)
    else .next s

/-! ### The end of a strand -/

/-- The halt bundle of a core may retire (R371). -/
def State.bundleReady (s : State) (k : Nat) : Bool :=
  let t := s.strand k
  t.live && t.halted && t.commit == .done && !s.fxLeft k && s.idle k .v && s.idle k .m && s.idle k .c && s.opsDone k

/-- The Parapet task ends on a core, and on both (R398). -/
def State.parapetEnd (s : State) (k : Nat) : State :=
  let s := (s.parClear k).memberEnd 0 k 0 false
  let s := s.modErr (fun e => { e with ended := k :: e.ended })
  if s.err.ended.contains s.err.coreA && s.err.ended.contains s.err.coreB then s.parapetOver else s

/-- HALT_BUNDLE_RETIRE (R371); a Parapet task that has missed its deadline is killed instead (R398). -/
def execHaltBundleRetire (core : Nat) (s : State) : Host.Outcome State Fault Refusal :=
  if s.bundleReady core = false then .next s
  else if s.tooLate core then .next s.latchOutputs.parapetKill
  else if (s.core core).inPar then .next (s.parapetEnd core)
  else .next ((s.clearStrand core).memberEnd (s.core core).ord.gang core 0 false)

/-- POSTCOMMIT_LONG (R370): 512 cycles after the commit step. -/
def execPostcommitLong (core : Nat) (s : State) : Host.Outcome State Fault Refusal :=
  let t := s.strand core
  if t.live = true ∧ t.commit = .done ∧ t.commitAt + 512 ≤ s.now then
    .next (takeFault { code := .postcommitLong, text := t.es.pc } { s with cur := core })
  else .next s

/-- WAITA_TIMEOUT (R195): the limit has passed; the word is read once more and WAITA completes. -/
def execWaitaTimeout (core : Nat) (s : State) : Host.Outcome State Fault Refusal :=
  let s := { s with cur := core }
  match s.st.poll, decodeWord (lget (s.text core) (s.st.es.pc / 4) 0) with
  | some p, .ok (.waita r sz d a b g) =>
    if s.mayAct core .s = true ∧ p.lim ≠ 0 ∧ p.t0 + p.lim ≤ s.now then
      s.leaving (.waita r sz d a b g) .s (word .s s (waitaTest r sz d a b s))
    else .next s
  | _, _ => .next s

/-- WATCHDOG (R386): no Parapet strand has a stall count. -/
def execWatchdog (core : Nat) (s : State) : Host.Outcome State Fault Refusal :=
  let t := (s.core core).ord
  if (s.core core).inPar = false ∧ t.live = true ∧ t.stopped = false ∧ t.commit ≠ .done ∧ s.err.wdog ≤ t.stall then
    .next (takeFault { code := .watchdog, text := t.es.pc, data := t.stall } { s with cur := core })
  else .next s

end Sys2Proof.Machine
end

