-- ==== Sys2Proof/Machine/Parapet.lean ====
section
/-! DEFINITION. The Parapet path's pre-emption and its limits, the halt outputs, and debug stops
(spec/05 R117, spec/18 R395 to R398, spec/20 R430). -/

namespace Sys2Proof.Machine

/-- The lease of a cluster broken (R291, R395 step 4): the holder's gang is discarded with its count raised; a holder in
its post-commit region keeps running without the lease (R370). -/
def State.breakLease (s : State) (n : Nat) : State :=
  match (s.girder n).holder with
  | none => s
  | some k =>
    let t := s.strand k
    let s := if t.commit = .done then s else s.discard t.gang (.requeue true)
    if (s.girder n).holder = some k then
      (s.modGirder n (fun g => g.endLease k)).modStrand k (fun t => { t with lease := .lapsed })
    else s

/-- The Parapet strand of a core (R366, R395 step 6, R398): s1 the status and s2 the zones at the trigger. -/
def parapetStrand (e : Err) (i : Image) (member now : Nat) (keyEn : Bool) : Strand :=
  let t : Strand := { gang := 0, member := member, startedAt := now, task := { n := 2, image := e.img } }
  { startStrand t i (i.entry.getD 0) keyEn now with regs := startRegs e.trigStat (fld e.trigStat 40 8) 0 0 }

/-- The Parapet context starts on a core (R395 step 6). -/
def State.parapetStart (s : State) (k : Nat) : State :=
  match (s.core k).imem.find? (fun i => i.handle == s.err.img) with
  | none => s
  | some i =>
    let m := if k = s.err.coreA then 0 else 1
    let s := s.modCore k (fun c => { c with
      inPar := true, preempt := 2, crc := 0, par := parapetStrand s.err i m s.now c.keyEn })
    let s := { s.freshRegs (k + 128) with cur := k }.modErr (fun e =>
      { e with run := true, startAt := if e.run then e.startAt else s.now })
    match s.spadPuts k 0 (i.data.map (BitVec.ofNat 8)) with
    | .ok s => s
    | .error (.fault f) => takeFault { f with engine := 6, text := 0, precise := false } s
    | .error _ => s

/-- PARAPET_PREEMPT (R395): the steps of one Parapet core, which waits while its strand is in its post-commit region. -/
def execParapetPreempt (core : Nat) (s : State) : Host.Outcome State Fault Refusal :=
  let c := s.core core
  if s.power.ready = false ∨ c.preempt ≠ 1 ∨ (c.ord.live = true ∧ c.ord.commit = .done) then .next s else
  let s := if c.ord.live = true ∨ c.ord.starting = true then s.discard c.ord.gang (.requeue true) else s
  let s := s.modCore core (fun c => { c with ldq := [], stq := [] })
  .next ((s.breakLease (clusterOf core)).parapetStart core)

/-- PARTNER_TIMEOUT (R396): a write whose partner has not come within 1 µs. -/
def execPartnerTimeout (s : State) : Host.Outcome State Fault Refusal :=
  match s.err.unpaired.find? (fun w => !w.counted && decide (w.since + 2300 ≤ s.now)) with
  | none => .next s
  | some w =>
    .next ((s.modErr (fun e => { e with
      unpaired := e.unpaired.map (fun x => if x = w then { x with counted := true } else x) })).latchOutputs)

/-- PARAPET_DEADLINE (R398): DEAD µs after the start of a run that has not halted. -/
def execParapetDeadline (s : State) : Host.Outcome State Fault Refusal :=
  if s.err.run = true ∧ s.err.startAt + 2300 * s.err.dead ≤ s.now then .next s.latchOutputs.parapetKill else .next s

/-- OUTPUT_SENSE (R385, R430): output 0, HALT_A, or 1, HALT_B, has been sensed at another level than it drives for more than
10 µs. -/
def execOutputSense (out : Nat) (s : State) : Host.Outcome State Fault Refusal :=
  if (lget s.err.off (out % 2) none).any (fun n => decide (23000 < n)) = false then .next s else
  .next ((s.modErr (fun e => { e with
    ha := true, hb := true, latch := true, off := e.off.set (out % 2) none })).noteRecord 5 0 0 0 (out % 2) 0)

/-- Something outside holds an output at a level, or lets it go (R430). -/
def State.holdOutput (s : State) (out : Nat) (lvl : Option Bool) : State :=
  s.modErr (fun e => { e with sense := e.sense.set (out % 2) lvl })

/-- DEBUG_STOP (R117): refused in the post-commit region; bounded results land. -/
def execDebugStop (core : Nat) (s : State) : Host.Outcome State Fault Refusal :=
  let t := s.strand core
  if t.live = true ∧ t.commit ≠ .done then
    .next (s.modStrand core (fun t => { t with stopped := true, hz := [], flHz := [] }))
  else .next s

/-- A copy queue whose commands have run as far as they can: none is under way, and the oldest waits for its events. -/
def State.copyBlocked (s : State) (k : Nat) (q : List CCmd) : Bool :=
  q.all (fun c => !c.started) && (match q.head? with
    | none => true
    | some c => (s.strand k).regs.e &&& kWaitmask c.k != kWaitmask c.k)

/-- The same of a core's commands in a Girder's queue. -/
def State.girderBlocked (s : State) (k : Nat) (g : Girder) : Bool :=
  let mine := g.queue.filterMap (fun x => match x with
    | .cmd c => if c.core = k then some c else none
    | .marker _ => none)
  mine.all (fun c => !c.started && !c.done) && (match mine.head? with
    | none => true
    | some c => !s.gReady c)

/-- A stopped strand stands still (R117): its token-tracked operations and its commands have completed, but for commands that
wait for events. -/
def State.debugStill (s : State) (k : Nat) : Bool :=
  let t := s.strand k
  t.live && t.stopped && t.rets.isEmpty && t.psts.isEmpty && t.vamo.isNone && t.cml.isEmpty && t.sysq.isEmpty
    && s.copyBlocked k (s.core k).ldq && s.copyBlocked k (s.core k).stq && s.clusters.all (fun c => s.girderBlocked k c.gir)

/-- Setting i of a port configuration: its fields in the order of Table 7.7, then counts and strides. -/
def PortCfg.item (c : PortCfg) (i : Nat) : Option Nat :=
  ([c.base, c.dir, c.esz, c.oc, c.tv, c.tok, wrapInt 64 c.estride] ++ c.counts ++ c.strides.map (wrapInt 64))[i]?

/-- A message that gives an item: 0x103 with its value, 0x104 where there is none, 0x105 for a marker. -/
def debugMsg {α : Type} (f : α → Nat) : Option (Option α) → Nat × Nat
  | none => (0x104, 0)
  | some none => (0x105, 0)
  | some (some x) => (0x103, f x)

/-- What the management path finds in a strand (R117). -/
def Strand.debugItem (t : Strand) (spad : Memory) (sys : Nat → Nat) : DebugItem → Nat × Nat
  | .s n => debugMsg BitVec.toNat (t.regs.s[n]?.map some)
  | .c => (0x103, t.regs.c.toNat)
  | .b n => debugMsg BitVec.toNat (t.regs.b[n]?.map some)
  | .v n => debugMsg BitVec.toNat (t.regs.v[n]?.map some)
  | .t n => debugMsg BitVec.toNat (t.regs.t[n]?.map some)
  | .k n => debugMsg BitVec.toNat ((t.regs.km ++ t.regs.kc)[n]?.map some)
  | .bd n => debugMsg BitVec.toNat (t.regs.bd[n]?.map some)
  | .w n => debugMsg id (t.regs.w[n]?.map some)
  | .e => (0x103, t.regs.e.toNat)
  | .pc e => (0x103, (t.eng e).pc)
  | .q i j => debugMsg BitVec.toNat (lget t.qs.q i [])[j]?
  | .fq j => debugMsg BitVec.toNat t.qs.fq[j]?
  | .oq e j => debugMsg b2n ((lget t.qs.oq (oqIdx e) [])[j]?.map some)
  | .pred j => debugMsg BitVec.toNat (t.regs.pred[j]?.map some)
  | .port p j i => match (lget t.qs.port p {}).cfgs[j]? with
    | none => (0x104, 0)
    | some none => (0x105, 0)
    | some (some c) => debugMsg id ((c.item i).map some)
  | .moved p => (0x103, (lget t.qs.port p {}).moved)
  | .sys idx => (0x103, sys idx)
  | .spad off => if off + 8 ≤ t.allot then (0x103, mnat spad off 8) else (0x104, 0)

/-- The management path reads an item of a stopped strand (R117), once nothing of it changes any more. -/
def State.debugRead (s : State) (core : Nat) (x : DebugItem) : State :=
  if s.debugStill core then
    s.modHost (fun h => { h with outbox := h.outbox ++
      [(s.strand core).debugItem (s.core core).spad (fun i => { s with cur := core }.sysRead i) x] })
  else s

/-- DEBUG_RESUME (R117). -/
def execDebugResume (core : Nat) (s : State) : Host.Outcome State Fault Refusal :=
  .next (s.modStrand core (fun t => { t with stopped := false }))

end Sys2Proof.Machine
end

