-- ==== Sys2Proof/Machine/Manage.lean ====
section
/-! DEFINITION. What system software sets up and takes down: scheduler contexts, pipeline instances, carves, published
buffers, apertures, streams, fences of units and their return, and what drains or refreshes on its own
(spec/09 R186, spec/10 R205 and R221, spec/11 R226 to R244, spec/16 R325, spec/17 R353, spec/18 R381 to R383, R401). -/

namespace Sys2Proof.Machine

/-! ### Carves -/

/-- Allotment that a core's running or starting strands need. -/
def State.allotOf (s : State) (k : Nat) : Nat :=
  let c := s.core k
  let o := if c.ord.live then c.ord.allot
    else if c.ord.starting then ((s.imageOf c.ord.task.image).map (·.scratch)).getD 0 else 0
  if c.inPar then max o c.par.allot else o

/-- A cluster's carve set; none where R186 refuses it. -/
def State.setCarve (s : State) (n units : Nat) : Option State :=
  if units = (s.cluster n).carve then some s
  else if n < 32 ∧ units ≤ 64 ∧ (s.cluster n).parts.isEmpty = true
      ∧ ((List.range 4).all (fun l => decide (s.allotOf (4 * n + l) + 4096 * units ≤ 0x80000))) = true then
    some (s.modCluster n (fun c => { c with carve := units }))
  else none

/-- CARVE_SET (R186). -/
def execCarveSet (cluster units : Nat) (s : State) : Host.Outcome State Fault Refusal :=
  .next ((s.setCarve cluster units).getD s)

/-! ### Pipeline instances -/

/-- Units that a slot of a class covers, as a range. -/
def slotRange (cls : Nat) (x : SlotName) : Nat × Nat := (x.unit, x.unit + clsUnits cls)

/-- Two slots share a unit of one core. -/
def slotsMeet (a b : Nat × Nat × Nat) : Bool := a.1 == b.1 && decide (a.2.1 < b.2.2) && decide (b.2.1 < a.2.2)

/-- Slots named so far, each its device core and its units: none overlaps another (R205). -/
def slotsApart : List (Nat × Nat × Nat) → Bool
  | [] => true
  | a :: l => l.all (fun b => !slotsMeet a b) && slotsApart l

/-- A named slot lies in its core's carve and is aligned to its size (R205). -/
def slotFits (carve cls : Nat) (x : SlotName) : Bool :=
  decide (x.core < 4) && decide (128 - carve ≤ x.unit) && decide (x.unit + clsUnits cls ≤ 128)
    && x.unit % clsUnits cls == 0

/-- Slots of a cluster's partitions as ranges. -/
def heldSlots (ps : List Partition) : List (Nat × Nat × Nat) :=
  (ps.flatMap (·.slots)).map (fun x => (x.core, x.unit, x.unit + clsUnits x.cls))

/-- A request's slots as ranges, with their classes. -/
def askedSlots (n : Nat) (es : List Edge) (slots : List (List SlotName)) : List (Nat × Nat × Nat) :=
  (es.zip slots).flatMap (fun p => p.2.map (fun x => (4 * n + x.core, slotRange p.1.cls x)))

/-- Last generation of a slot that no partition holds now (R212). -/
def Cluster.lastGen (c : Cluster) (core unit : Nat) : Nat :=
  match c.gens.find? (fun g => g.1 == core && g.2.1 == unit) with
  | some g => g.2.2
  | none => 0

/-- The partitions of a new instance (R205). -/
def State.newParts (s : State) (ctx n : Nat) (es : List Edge) (slots : List (List SlotName)) : List Partition :=
  (es.zip slots).mapIdx (fun i p =>
    { ctx := ctx, edge := i, cls := p.1.cls, waiting := []
      slots := p.2.map (fun x =>
        { core := 4 * n + x.core, unit := x.unit, cls := p.1.cls, gen := (s.cluster n).lastGen (4 * n + x.core) x.unit
          st := .free, count := 0, gang := 0, bytes := [] }) })

/-- A pipeline instance of a context; none where it is refused (R186, R205, R353). -/
def State.instCreate (s : State) (ctx : Nat) (q : InstReq) : Option State :=
  match s.sched.images.find? (fun i => i.handle == q.image && i.ctxs.contains ctx && !i.stages.isEmpty) with
  | none => none
  | some i =>
    match s.setCarve q.cluster q.carve with
    | none => none
    | some s =>
      let c := s.cluster q.cluster
      if ctx < 1024 ∧ q.cluster < 32 ∧ c.fenced = false ∧ (s.ctx ctx).inst = none ∧ q.slots.length = i.edges.length
          ∧ ((i.edges.zip q.slots).all (fun p => p.2.length == p.1.quota && p.2.all (slotFits c.carve p.1.cls))) = true
          ∧ slotsApart (askedSlots q.cluster i.edges q.slots ++ heldSlots c.parts) = true then
        let s := s.modCluster q.cluster (fun c => { c with
          parts := c.parts ++ s.newParts ctx q.cluster i.edges q.slots })
        some (s.modCtx ctx (fun c => { c with
          inst := some (q.image, q.cluster, q.arg % 2 ^ 64), quotas := List.replicate i.stages.length none }))
      else none

/-- Partitions that a test names cease to exist; their slots' generations advance (R212, R221). -/
def Cluster.dropParts (c : Cluster) (p : Partition → Bool) : Cluster :=
  { c.keepGens ((c.parts.filter p).flatMap (·.slots)) with parts := c.parts.filter (fun x => !p x) }

/-- PIPELINE_INSTANCE_CREATE (R205). -/
def execPipelineInstanceCreate (ctx : Nat) (req : InstReq) (s : State) : Host.Outcome State Fault Refusal :=
  .next ((s.instCreate ctx req).getD s)

/-- PIPELINE_INSTANCE_DESTROY (R221). -/
def execPipelineInstanceDestroy (ctx : Nat) (s : State) : Host.Outcome State Fault Refusal :=
  let s := { s with clusters := s.clusters.map (fun (c : Cluster) => c.dropParts (fun p => p.ctx == ctx)) }
  .next (s.modCtx ctx (fun c => { c with inst := none, quotas := [] }))

/-! ### Contexts -/

/-- Counter ranges of two contexts meet. -/
def rangesMeet (b n b' n' : Nat) : Bool :=
  decide (0 < n) && decide (0 < n') && decide (b < b' + n') && decide (b' < b + n)

/-- Levels, counters and the other values of a configuration fit (R353, R384, R403, R417, R422). -/
def State.cfgFits (s : State) (ctx : Nat) (q : CtxConfig) : Bool :=
  decide (ctx < 1024) && decide (4 ≤ q.ceil) && decide (q.ceil ≤ q.base) && decide (q.base ≤ 23)
    && decide (1 ≤ q.weight) && decide (q.weight ≤ 255) && decide (1 ≤ q.qcap) && decide (q.qcap ≤ 65536)
    && decide (q.dbase + q.dcnt ≤ 4096) && decide (q.xid < 4096) && q.faultBase % 4096 == 0
    && decide (q.faultBase + 64 * 2 ^ q.falog ≤ deviceEnd) && decide (4 ≤ q.falog) && decide (q.falog ≤ 12)
    && decide (q.owner ≤ 16) && decide (q.vec < (if q.owner = 0 then 1024 else 64))
    && (match q.pasid with
      | some p => decide (p < 2 ^ 20)
      | none => true)
    && (match q.stream with
      | some i => decide (i < 384)
      | none => true)
    && s.sched.ctxs.zipIdx.all (fun p => p.2 == ctx || !p.1.configured
      || !rangesMeet q.dbase q.dcnt p.1.dbase p.1.dcnt)

/-- The context as configured. -/
def Ctx.configure (c : Ctx) (q : CtxConfig) : Ctx :=
  { c with
    configured := true, base := q.base, ceil := q.ceil, weight := q.weight, qbase := q.qbase, qcap := q.qcap
    dbase := q.dbase, dcnt := q.dcnt, xid := q.xid, faultBase := q.faultBase, falog := q.falog, vec := q.vec
    owner := q.owner, pasid := q.pasid, stream := q.stream }

/-- CONTEXT_CONFIGURE (R353): one that does not fit changes nothing. -/
def execContextConfigure (ctx : Nat) (cfg : CtxConfig) (s : State) : Host.Outcome State Fault Refusal :=
  if s.cfgFits ctx cfg = false then .next s else
  let s' := s.modCtx ctx (fun c => c.configure cfg)
  match cfg.inst with
  | none => .next s'
  | some q => .next ((s'.instCreate ctx q).getD s)

/-- CONTEXT_UNFENCE (R382). -/
def execContextUnfence (ctx : Nat) (s : State) : Host.Outcome State Fault Refusal :=
  let s' := s.modCtx ctx (fun c => { c with fenced := false })
  match (s.ctx ctx).stream with
  | some i => .next (s'.modStream i (fun x => { x with paused := false }))
  | none => .next s'

/-! ### Published buffers, apertures, streams -/

/-- Two ranges given by start and length meet. -/
def spansMeet (a n b m : Nat) : Bool := decide (a < b + m) && decide (b < a + n)

/-- Bytes of a buffer's range. -/
def bufBytes (d : BufDesc) : Nat := d.extents * extBytes d

/-- A published buffer's descriptor keeps its limits (Table 11.6). -/
def bufOk (d : BufDesc) : Bool :=
  d.zero == 0 && decide (d.esize ≤ 4) && d.base % extBytes d == 0 && decide (1 ≤ d.extents) && decide (d.extents ≤ 16384)
    && decide (d.backA + bufBytes d ≤ deviceEnd) && decide (d.backB + bufBytes d ≤ deviceEnd)
    && !spansMeet d.backA (bufBytes d) d.backB (bufBytes d)

/-- PUBLISHED_BUFFER_CREATE (R236). -/
def execPublishedBufferCreate (ctx handle : Nat) (desc : BufDesc) (s : State) : Host.Outcome State Fault Refusal :=
  let c := s.ctx ctx
  if ctx < 1024 ∧ handle < 4096 ∧ bufOk desc = true ∧ (c.bufs.all (fun b => b.handle != handle
      && !spansMeet desc.base (bufBytes desc) b.desc.base (bufBytes b.desc))) = true then
    .next (s.modCtx ctx (fun c => { c with
      bufs := c.bufs ++ [{ handle := handle, desc := desc, sel := List.replicate desc.extents false, version := 0 }] }))
  else .next s

/-- An aperture's descriptor keeps its limits (Table 11.7). DESIGN CHOICE (assumption 145): an n4 source without scale words is
accepted, and its codes are the signed integers of n4 type 0. -/
def apOk (d : ApDesc) : Bool :=
  d.abase % 0x200000 == 0 && d.sbase % 128 == 0 && d.rows % 64 == 0 && d.cols % 64 == 0 && decide (d.rows < 65536)
    && decide (d.cols < 65536) && (d.kind == 1 || d.kind == 2) && decide (d.ty ≤ 6) && decide (d.smode ≤ 2)
    && decide (d.blk ≤ 2) && (d.kind == 2 || (d.smode == 0 && d.blk == 0))

/-- APERTURE_CREATE (R244): the lines and tiles of an earlier descriptor go with it. -/
def execApertureCreate (ctx i : Nat) (desc : ApDesc) (s : State) : Host.Outcome State Fault Refusal :=
  if ctx < 1024 ∧ i < 64 ∧ apOk desc = true then
    let lo := apKey ctx i 0
    .next ((s.dropLines lo (lo + 2 ^ 40)).modCtx ctx (fun c => { c with
      aps := c.aps.filter (fun a => a.idx != i) ++ [⟨i, desc, []⟩] }))
  else .next s

/-- A layer entry keeps its limits (Table 16.5). -/
def layerOk (l : LayerDesc) : Bool :=
  decide (1 ≤ l.w) && decide (l.w ≤ 65535) && decide (1 ≤ l.h) && decide (l.h ≤ 65535) && decide (lyTc l ≤ 4096)
    && decide (lyTiles l ≤ 65536) && decide (l.s ≤ 2) && decide (l.halo ≤ 8) && decide (l.rpt ≤ 255) && l.zero == 0

/-- A stream descriptor keeps its limits (Table 16.1). -/
def streamOk (d : StreamDesc) : Bool :=
  decide (1 ≤ d.codec) && decide (d.codec ≤ 4) && decide (1 ≤ d.fps) && decide (d.fps ≤ 120)
    && d.w % 2 == 0 && decide (64 ≤ d.w) && decide (d.w ≤ 4096) && d.h % 2 == 0 && decide (64 ≤ d.h)
    && decide (d.h ≤ 4096) && decide (2 ≤ d.f) && decide (d.f ≤ 16) && decide (1 ≤ d.layers.length)
    && decide (d.layers.length ≤ 64) && d.bsbase % 4096 == 0 && decide (16 ≤ d.bslog) && decide (d.bslog ≤ 24)
    && d.fbase % 4096 == 0 && d.es % 4096 == 0 && decide (sdEntryBytes d (sdSample d false) ≤ d.es)
    && decide (d.es < 2 ^ 32) && d.tsbase % 4096 == 0 && d.layers.all layerOk && d.zero == 0

/-- Decode slots of a stream (R325). -/
def slotsNeeded (d : StreamDesc) : Nat := cdiv (d.w * d.h * d.fps) 62668800

/-- Decode slots in use on an engine. -/
def State.slotsUsed (s : State) (e : Nat) : Nat :=
  ((s.streams.filter (fun p => p.2.engine == e)).map (fun p => p.2.slots)).sum

/-- STREAM_CREATE (R325): on the lowest-numbered engine with enough free slots. -/
def execStreamCreate (stream ctx : Nat) (desc : StreamDesc) (s : State) : Host.Outcome State Fault Refusal :=
  match (List.range 16).find? (fun e => decide (s.slotsUsed e + slotsNeeded desc ≤ 24)) with
  | none => .next s
  | some e =>
    let other := (s.ctx ctx).stream
    if stream < 384 ∧ ctx < 1024 ∧ streamOk desc = true ∧ (s.stream stream).isNone = true
        ∧ (other = none ∨ other = some stream) then
      let x : Stream := { ctx := ctx, desc := desc, engine := e, slots := slotsNeeded desc }
      let s := { s with streams := s.streams ++ [(stream, x)] }
      .next (s.modCtx ctx (fun c => { c with stream := some stream }))
    else .next s

/-- STREAM_RECLAIM (R333). -/
def execStreamReclaim (stream : Nat) (s : State) : Host.Outcome State Fault Refusal :=
  match s.stream stream with
  | none => .next s
  | some x =>
    let s := { s with streams := adel s.streams stream }
    .next (s.modCtx x.ctx (fun c => if c.stream = some stream then { c with stream := none } else c))

/-! ### Units fenced and returned -/

/-- A slice's dirty lines written home; one that cannot be read poisons its page (R383 step 3). -/
def State.flushSlice (s : State) (n : Nat) : State :=
  let s := (s.cluster n).slice.foldl (fun s l => if l.dirty = 0#128 then s else s.toHome n false l) s
  s.modCluster n (fun c => { c with slice := [] })

/-- A cluster is fenced (R383). -/
def State.fenceCluster (s : State) (n : Nat) : State :=
  let s := (coresOf n).foldl State.fenceCore s
  let s := s.fenceGirder n
  let cs := noRepeats [] ((s.cluster n).parts.map (·.ctx))
  let s := cs.foldl State.fenceCtx s
  (s.flushSlice n).modCluster n (fun c => { c.dropParts (fun _ => true) with fenced := true })

/-- A stack's memory-side cache writes the dirty lines it can read into HBM (R383). -/
def State.flushMsc (s : State) (n : Nat) : State :=
  let lo := n * stackBytes
  let bad (a : Nat) : Bool := s.upsets.any (fun u => u.uncorr && upsetOnLine u a)
  let new := s.home.filter (fun c => decide (lo ≤ c.1) && decide (c.1 < lo + stackBytes) && !bad c.1)
  let kept := s.hbm.filter (fun c => decide (c.1 < lo) || decide (lo + stackBytes ≤ c.1) || bad c.1)
  let hbm := new.foldl (fun (m : Memory) c => mset m c.1 c.2) kept
  { s with hbm := hbm }.modStack n (fun k => { k with
    msc := k.msc.filter (fun l => bad (128 * l)) })

/-- A stack domain is fenced (R383). -/
def State.fenceStack (s : State) (n : Nat) : State :=
  let s := ((List.range 32).filter (fun c => stackOf c == n)).foldl State.fenceCluster s
  (s.flushMsc n).modStack n (fun x => { x with fenced := true })

/-- Every region of a die's weight store is lost (R401). -/
def State.loseStore (s : State) (die : Nat) : State :=
  (List.range 80).foldl (fun s m => s.loseRegion die m 0) s

/-- Number of a unit (R16). -/
def unitNo : UnitId → Nat
  | .core n | .girder n | .cluster n | .stack n | .weightStore n => n

/-- A unit fenced after a predictive failure (R401). -/
def State.fenceUnit (s : State) : UnitId → State
  | .core n => s.fenceCore n
  | .girder n => s.fenceGirder n
  | .cluster n => s.fenceCluster n
  | .stack n => s.fenceStack n
  | .weightStore n => s.loseStore n

/-- Voltage steps below nominal of a unit's domain (R401). -/
def Err.below (e : Err) (u : UnitId) : Nat := ((e.volt.find? (fun p => p.1 == u)).map Prod.snd).getD 0

/-- The voltage of a unit's domain set to n steps below nominal. -/
def Err.setVolt (e : Err) (u : UnitId) (n : Nat) : Err :=
  { e with volt := (if n = 0 then [] else [(u, n)]) ++ e.volt.filter (fun p => p.1 != u) }

/-- The adaptive voltage control lowers a unit's domain by a step, unless some report is held (R401). -/
def State.undervolt (s : State) (u : UnitId) : State :=
  if s.err.reports.any (fun r => decide (s.now < r.2 + reportWindow)) then s
  else s.modErr (fun e => e.setVolt u (e.below u + 1))

/-- Errors of an array of a unit that were corrected within the last second (R401). -/
def State.recentCorr (s : State) (u : UnitId) (a : Nat) : Nat :=
  (s.err.corrs.filter (fun c => c.1 == u && c.2.1 == a && decide (s.now < c.2.2 + reportWindow))).length

/-- An array of a unit has reached its predictive threshold (R401): the thresholds are the device's own (assumption 137). -/
def State.failing (s : State) (u : UnitId) : Bool :=
  (List.range 5).any (fun a => 0 < s.recentCorr u a && decide (Config.predictAt u a ≤ s.recentCorr u a))

/-- PREDICTIVE_FAILURE (R401): an array's count has crossed its threshold. Below nominal that raises the voltage of its domain by
a step and holds the report; at nominal it reports and fences. The count begins anew with the step. -/
def execPredictiveFailure (unit : UnitId) (s : State) : Host.Outcome State Fault Refusal :=
  if s.failing unit = false then .next s else
  let n := s.err.below unit
  let rest := s.err.reports.filter (fun r => r.1 != unit)
  let s := s.modErr (fun e => { e with corrs := e.corrs.filter (fun c => c.1 != unit) })
  if 0 < n then
    .next (s.modErr (fun e => { e.setVolt unit (n - 1) with reports := (unit, s.now) :: rest }))
  else
    let s := s.modErr (fun e => { e with reports := rest })
    let s := s.putRecord 0 (fun seq =>
      recordBytes 0x08 0 0 7 0 0 0 0xFFFFFFFF 0 (unitNo unit) 0 0 0 0 0 0 s.devTime seq 0 0)
    .next (s.fenceUnit unit)

/-- A core in service again. -/
def State.unfenceCore (s : State) (k : Nat) : State := s.modCore k (fun c => { c with fenced := false })

/-- A cluster in service again, with its cores and its Girder. -/
def State.unfenceCluster (s : State) (n : Nat) : State :=
  ((coresOf n).foldl State.unfenceCore s).modCluster n (fun c => { c with
    fenced := false, gir := { c.gir with fenced := false } })

/-- RETURN_TO_SERVICE (R382, R383). -/
def execReturnToService (unit : UnitId) (s : State) : Host.Outcome State Fault Refusal :=
  match unit with
  | .core n => .next (s.unfenceCore n)
  | .girder n => .next (s.modGirder n (fun g => { g with fenced := false }))
  | .cluster n => .next (s.unfenceCluster n)
  | .stack n =>
    .next ((((List.range 32).filter (fun c => stackOf c == n)).foldl State.unfenceCluster s).modStack n
      (fun x => { x with fenced := false }))
  | .weightStore _ => .next s

/-- PAGE_RETIRE (R381): a poisoned page is retired; it stays withdrawn. -/
def execPageRetire (page : Nat) (s : State) : Host.Outcome State Fault Refusal :=
  if s.err.poisoned.contains page && !s.err.retired.contains page then
    .next (s.modErr (fun e => { e with retired := page :: e.retired }))
  else .next s

/-! ### What happens in the background -/

/-- DIRTY_LINE_DRAIN (R231): line i of an L1, of a slice, or of a stack leaves for the level below. -/
def execDirtyLineDrain (lv : CmLevel) (unit i : Nat) (s : State) : Host.Outcome State Fault Refusal :=
  match lv with
  | .l1 => (match (s.core unit).l1[i]? with
    | some l =>
      if l.dirty = 0#128 then .next s else
      .next ((s.toSlice unit l).modCore unit (fun c => { c with l1 := lmod c.l1 i Line.cleaned }))
    | none => .next s)
  | .slice => (match (s.cluster unit).slice[i]? with
    | some l =>
      if l.dirty = 0#128 then .next s else
      .next ((s.toHome unit false l).modCluster unit (fun c => { c with slice := lmod c.slice i Line.cleaned }))
    | none => .next s)
  | .msc =>
    let a := unit * stackBytes + 128 * i
    if unit < 8 ∧ 128 * i < stackBytes then .next (s.mscWrite (· == a)) else .next s

/-- WST_REFRESH_SLOT (R226): time reaches the group's next refresh slot, slot 4g of a period; reads of the group then
wait until the slot ends. -/
def execWstRefreshSlot (group : Nat) (s : State) : Host.Outcome State Fault Refusal :=
  if group < 32 ∧ s.calTime / 1150 % 128 ≠ 4 * group then
    .next (s.advance ((147200 + 4600 * group - s.calTime % 147200) % 147200))
  else .next s

/-- PINNED_SERVICE_WITHDRAWAL (R364). -/
def execPinnedServiceWithdrawal (core : Nat) (back : Bool) (s : State) : Host.Outcome State Fault Refusal :=
  .next (s.modCore core (fun c => { c with pinned := !back }))

end Sys2Proof.Machine
end

