-- ==== Sys2Proof/Machine/Host.lean ====
section
/-! DEFINITION. The host side: BAR0 registers, inbound accesses, ATS, MSI-X, IDE, SPDM and measurements, and the link
(spec/20_host_and_peers.md). Messages to the host carry a tag: 0x100 a read completion, 0x101 an Unsupported Request, 0x102
a completed ATS invalidation, 0x103 to 0x105 an item read at a debug stop; others are the SPDM response codes. -/

namespace Sys2Proof.Machine

/-! ### IDE -/

/-- A function configured to require IDE, or no longer (R426). -/
def State.requireIde (s : State) (fn : Nat) (on : Bool) : State :=
  s.modHost (fun h => { h with ideOnly := if on then fn :: h.ideOnly.filter (· != fn) else h.ideOnly.filter (· != fn) })

/-- How the inbound requests that follow arrive: outside every IDE stream, or in one (assumption 139). -/
def State.arriveIn (s : State) (plain : Bool) : State := s.modHost (fun h => { h with plain := plain })

/-- A function that requires IDE refuses a request that comes outside it (R426). -/
def State.ideRefuses (s : State) (fn : Nat) : Bool := s.host.plain && s.host.ideOnly.contains fn

/-! ### BAR2 -/

/-- A frame of device memory is granted to a function (R420). -/
def State.granted (s : State) (fn frame : Nat) : Bool :=
  s.host.grants.any (fun g => g.1 == fn && decide (g.2.1 ≤ 4096 * frame) && decide (4096 * (frame + 1) ≤ g.2.2))

/-- Frames that n bytes at an address touch. -/
def framesOf (pa n : Nat) : List Nat := (List.range ((pa + n - 1) / 4096 + 1 - pa / 4096)).map (pa / 4096 + ·)

/-- The physical bytes that n bytes at a window offset of a function reach, none outside the window, the device or the
function's granted frames (R420); none also where the function refuses the request (R426). -/
def State.barReach (s : State) (fn off n : Nat) : Option Nat :=
  if s.ideRefuses fn then none else
  match s.host.bar2[fn]? with
  | none => none
  | some (base, size) =>
    let pa := base + off
    if s.power.ready = true ∧ off + n ≤ size ∧ pa + n ≤ deviceEnd
        ∧ (framesOf pa n).all (fun f => (fn == 0 || s.granted fn f) && !s.poisonedPa (4096 * f)) = true then
      some pa
    else none

/-- A size a BAR2 window may have (R420): a power of two, 1 GiB to 64 GiB for the physical function, 256 MiB to 4 GiB for
a virtual one. -/
def windowSizes (fn : Nat) : List Nat :=
  if fn = 0 then (List.range 7).map (fun i => 2 ^ (30 + i)) else (List.range 5).map (fun i => 2 ^ (28 + i))

/-- The BAR2 window of a function placed (R420). -/
def State.setWindow (s : State) (fn base size : Nat) : State :=
  if fn < 17 ∧ (windowSizes fn).contains size = true then s.modHost (fun h => { h with bar2 := h.bar2.set fn (base, size) })
  else s

/-- Frames granted to a virtual function (R420). -/
def State.addGrant (s : State) (fn lo hi : Nat) : State :=
  if 1 ≤ fn ∧ fn ≤ 16 ∧ lo % 4096 = 0 ∧ hi % 4096 = 0 ∧ lo < hi ∧ hi ≤ deviceEnd then
    s.modHost (fun h => { h with grants := h.grants ++ [(fn, lo, hi)] })
  else s

/-- INBOUND_WRITE (R421): bytes reach their home and invalidate apertures. -/
def execInboundWrite (fn off : Nat) (bytes : List Nat) (s : State) : Host.Outcome State Fault Refusal :=
  match s.barReach fn off bytes.length with
  | none => .next s.unsupported
  | some pa => .next (s.homeWrite pa (bytes.map (BitVec.ofNat 8)))

/-- Lines of n bytes at a physical address read for the host: errors are corrected, or found, which answers the line (R381,
R387). -/
def State.inboundLines (s : State) (pa n : Nat) : Except Nat State :=
  (List.range ((pa + n - 1) / 128 + 1 - pa / 128)).foldlM (fun s i =>
    let a := 128 * (pa / 128 + i)
    match s.homeScrub a with
    | .ok s => Except.ok s
    | .error _ => Except.error a) s

/-- A line that cannot be read: its page is poisoned. DESIGN CHOICE (assumption 127): the access is completed as an
Unsupported Request. -/
def State.inboundBad (s : State) (a : Nat) : State :=
  { s with upsets := s.upsets.filter (fun u => !(u.uncorr && upsetOnLine u a)) }.poison a |>.unsupported

/-- INBOUND_READ (R420, R421): at the home, or in HBM for No Snoop. -/
def execInboundRead (fn off n : Nat) (noSnoop : Bool) (s : State) : Host.Outcome State Fault Refusal :=
  match s.barReach fn off n with
  | none => .next s.unsupported
  | some pa =>
    match s.inboundLines pa n with
    | .error a => .next (s.inboundBad a)
    | .ok s => .next ((s.hbmUsed pa).toHost 0x100 (mnat (if noSnoop then s.hbm else s.home) pa n))

/-- The new value of an inbound AtomicOp of n bytes (R416, R425); a CAS that fails writes the old value back. -/
def hostAtomic (op : HostAtomic) (n old : Nat) : Nat :=
  match op with
  | .fetchAdd v => (old + v) % 2 ^ (8 * n)
  | .swap v => v % 2 ^ (8 * n)
  | .cas c v => if old = c % 2 ^ (8 * n) then v % 2 ^ (8 * n) else old

/-- INBOUND_ATOMIC (R425): applied at the home; one that is not naturally aligned is unsupported. -/
def execInboundAtomic (fn off : Nat) (op : HostAtomic) (sz : WSize) (s : State) : Host.Outcome State Fault Refusal :=
  let n := wsizeBytes sz
  if off % n ≠ 0 then .next s.unsupported else
  match s.barReach fn off n with
  | none => .next s.unsupported
  | some pa =>
    match s.inboundLines pa n with
    | .error a => .next (s.inboundBad a)
    | .ok s =>
      let old := mnat s.home pa n
      .next ((s.homeWrite pa (bytesLE n (hostAtomic op n old))).toHost 0x100 old)

/-! ### Translations and messages -/

/-- A store to host memory has been translated and not handed to PCIe yet. -/
def PStore.toBus (p : PStore) : Bool := p.writes.any (fun w => w.1.isBus)

/-- Some strand of a function's contexts under a PASID holds such a store. -/
def State.busPending (s : State) (fn pasid : Nat) : Bool :=
  s.cores.any (fun c => c.strand.psts.any PStore.toBus && (s.ctx c.strand.task.ctx).owner == fn
    && (s.ctx c.strand.task.ctx).pasid == some pasid)

/-- ATS_INVALIDATION (R423): entries of n pages go; the request completes once every access that used one has been handed
on. -/
def execAtsInvalidation (fn pasid page n : Nat) (s : State) : Host.Outcome State Fault Refusal :=
  if s.busPending fn pasid then .next s else
  let s := s.modHost (fun h => { h with atc := h.atc.filter (fun e =>
    !(e.1 == fn && e.2.1 == pasid && decide (page ≤ e.2.2.1) && decide (e.2.2.1 < page + n))) })
  .next (s.toHost 0x102 page)

/-- A vector masked (R422). -/
def State.maskVec (s : State) (vec : Nat) : State :=
  s.modHost (fun h => { h with msixMask := if h.msixMask.contains vec then h.msixMask else vec :: h.msixMask })

/-- A vector unmasked: one message if its pending bit is set (R422). -/
def State.unmaskVec (s : State) (vec : Nat) : State :=
  s.modHost (fun h =>
    let h := { h with msixMask := h.msixMask.filter (· != vec) }
    if h.msixPend.contains vec then
      { h with msixPend := h.msixPend.filter (· != vec), msixSent := h.msixSent ++ [vec] }
    else h)

/-- MSIX_UNMASK (R422): vectors are numbered 0 to 1,023 for the physical function, then 64 for each virtual one. -/
def execMsixUnmask (vec : Nat) (s : State) : Host.Outcome State Fault Refusal := .next (s.unmaskVec vec)

/-- IDE_KEY_PROGRAM (R426): stream 0 is the link stream, 1 to 8 are selective. -/
def execIdeKeyProgram (stream key : Nat) (s : State) : Host.Outcome State Fault Refusal :=
  if 8 < stream then .next s else .next (s.modHost (fun h => { h with ide := aset h.ide stream key }))

/-! ### SPDM -/

/-- The ERROR response of SPDM. -/
def State.spdmError (s : State) : State := s.toHost 0x7F 0

/-- An SPDM response, which the transcript takes with its request (R427, R428). -/
def State.spdmAnswer (s : State) (req : List Nat) (tag val : Nat) : State :=
  (s.modHost (fun h => { h with transcript := h.transcript ++ req ++ [tag, val] })).toHost tag val

/-- A request served only in a connection state (R427). One that comes during a reset is answered after it; one in the recovery
state gets an error (R432). -/
def State.spdmAt (s : State) (i : Instr) (ok : Bool) (s' : State) : Host.Outcome State Fault Refusal :=
  if s.power.inReset || s.power.linkNext then
    .next { s with power := { s.power with spdmq := s.power.spdmq ++ [.event i] } }
  else if s.power.ready && ok then .next s' else .next s.spdmError

/-- The certificate chain of a slot (R427); slot 0 holds the one that the boot sequence read from flash. -/
def State.chainOf (s : State) (slot : Nat) : List Nat :=
  if slot = 0 then Config.flashPart 6 s.power.booted else lget s.host.chains slot []

/-- An Ed448 signature with the identity key (R427, R434). -/
def State.sign (s : State) (msg : List Nat) : Nat := Config.ed448 s.power.key msg

/-- GET_VERSION (R427): SPDM 1.3, and a fresh connection. -/
def execGetVersion (s : State) : Host.Outcome State Fault Refusal :=
  s.spdmAt .getVersion true ((s.modHost (fun h => { h with spdm := 1, session := 0, transcript := [] })).spdmAnswer [0x84] 0x04 0x1300)

/-- GET_CAPABILITIES (R427). -/
def execGetCapabilities (s : State) : Host.Outcome State Fault Refusal :=
  s.spdmAt .getCapabilities (s.host.spdm == 1)
    ((s.modHost (fun h => { h with spdm := 2 })).spdmAnswer [0xE1] 0x61 Config.spdmCaps)

/-- NEGOTIATE_ALGORITHMS (R427): only Ed448 (bit 11 of BaseAsymAlgo) and SHA3-512 (bit 5 of BaseHashAlgo). -/
def execNegotiateAlgorithms (asym hash : Nat) (s : State) : Host.Outcome State Fault Refusal :=
  s.spdmAt (.negotiateAlgorithms asym hash) (s.host.spdm == 2 && bit asym 11 && bit hash 5)
    ((s.modHost (fun h => { h with spdm := 3 })).spdmAnswer [0xE3, asym, hash] 0x63 (2 ^ 11 + 2 ^ 32 * 2 ^ 5))

/-- GET_DIGESTS (R427): the digests of the chains of the slots that hold one, slot 0 first. -/
def execGetDigests (s : State) : Host.Outcome State Fault Refusal :=
  let cs := (List.range 8).filter (fun i => i == 0 || !(s.chainOf i).isEmpty)
  s.spdmAt .getDigests (s.host.spdm == 3) (s.spdmAnswer [0x81] 0x01 (ofLanes 512 (cs.map (fun i => Config.sha3 (s.chainOf i)))))

/-- GET_CERTIFICATE (R427): a portion of a slot's chain. -/
def execGetCertificate (slot off len : Nat) (s : State) : Host.Outcome State Fault Refusal :=
  s.spdmAt (.getCertificate slot off len) (s.host.spdm == 3 && decide (slot < 8) && decide (off < (s.chainOf slot).length))
    (s.spdmAnswer [0x82, slot, off, len] 0x02 (ofLanes 8 (((s.chainOf slot).drop off).take len)))

/-- SET_CERTIFICATE (R427): slots 1 to 7. -/
def execSetCertificate (slot : Nat) (chain : List Nat) (s : State) : Host.Outcome State Fault Refusal :=
  s.spdmAt (.setCertificate slot chain) (s.host.spdm == 3 && decide (1 ≤ slot) && decide (slot < 8))
    ((s.modHost (fun h => { h with chains := h.chains.set slot (chain.map (· % 256)) })).toHost 0x6E slot)

/-- CHALLENGE (R427): signed with the identity key over the transcript. -/
def execChallenge (slot nonce : Nat) (s : State) : Host.Outcome State Fault Refusal :=
  s.spdmAt (.challenge slot nonce) (s.host.spdm == 3 && decide (slot < 8) && !(s.chainOf slot).isEmpty)
    (s.spdmAnswer [0x83, slot, nonce] 0x03
      (s.sign (s.host.transcript ++ [0x83, slot, nonce, Config.sha3 (s.chainOf slot)])))

/-- ERR_PDES as a number (Table 18.8). -/
def Err.pdes (e : Err) : Nat := e.coreA + e.img / 128 * 128 + 2 ^ 32 * e.coreB

/-- Bytes whose digest is measurement block 4 (Table 20.2). -/
def State.parapetBytes (s : State) : List Nat :=
  ((s.imageOf s.err.img).map (·.bytes)).getD [] ++ lanesOf 8 8 s.err.pdes ++ lanesOf 8 4 s.err.dead

/-- What measurement block 5 digests (Table 20.2): the functions' windows and grants, the IDE streams, and the functions that
require IDE. -/
def State.pcieConfig (s : State) : List Nat :=
  s.host.bar2.flatMap (fun p => [p.1, p.2]) ++ s.host.grants.flatMap (fun g => [g.1, g.2.1, g.2.2])
    ++ s.host.ide.flatMap (fun p => [p.1, p.2]) ++ s.host.ideOnly

/-- A measurement block (R428). -/
def State.measurement (s : State) (i : Nat) : Nat :=
  Config.shake256 (
    if i = 1 then Config.bootRom
    else if i = 2 then Config.flashPart 0 s.power.booted
    else if i = 3 then Config.flashPart 4 s.power.booted
    else if i = 4 then s.parapetBytes
    else s.pcieConfig)

/-- GET_MEASUREMENTS (R428): index 0 asks for their number, 0xFF for all, 1 to 5 for one. -/
def execGetMeasurements (idx nonce : Nat) (s : State) : Host.Outcome State Fault Refusal :=
  let bs := if idx = 0xFF then [1, 2, 3, 4, 5] else if idx = 0 then [] else [idx]
  let val := if idx = 0 then 5 else ofLanes 512 (bs.map s.measurement)
  let sig := s.sign (s.host.transcript ++ [0xE0, idx, nonce, val])
  s.spdmAt (.getMeasurements idx nonce) (s.host.spdm == 3 && (idx == 0xFF || decide (idx ≤ 5)))
    (s.spdmAnswer [0xE0, idx, nonce] 0x60 (val + 2 ^ (512 * 5) * sig))

/-- KEY_EXCHANGE (R427): a session in its handshake. -/
def execKeyExchange (slot nonce : Nat) (s : State) : Host.Outcome State Fault Refusal :=
  s.spdmAt (.keyExchange slot nonce) (s.host.spdm == 3 && s.host.session == 0 && decide (slot < 8))
    ((s.modHost (fun h => { h with session := 1, sessionId := Config.sessionKey slot nonce })).spdmAnswer
      [0xE4, slot, nonce] 0x64 (s.sign (s.host.transcript ++ [0xE4, slot, nonce])))

/-- FINISH (R427). -/
def execFinish (mac : Nat) (s : State) : Host.Outcome State Fault Refusal :=
  s.spdmAt (.finish mac) (s.host.session == 1 && mac == Config.finishMac s.host.sessionId)
    ((s.modHost (fun h => { h with session := 2 })).spdmAnswer [0xE5, mac] 0x65 0)

/-- END_SESSION (R427). -/
def execEndSession (s : State) : Host.Outcome State Fault Refusal :=
  s.spdmAt .endSession (s.host.session == 2) ((s.modHost (fun h => { h with session := 0, sessionId := 0 })).spdmAnswer [0xEC] 0x6C 0)

/-! ### The link and functions -/

/-- The link trained (R416): up at a supported width and rate in FLIT mode, else down with a record in flash. -/
def State.trainLink (s : State) (width rate : Nat) (flit : Bool) : State :=
  if flit = true ∧ (width = 16 ∨ width = 8) ∧ (rate = 128 ∨ rate = 64 ∨ rate = 32) then
    s.modHost (fun h => { h with linkUp := true, width := width, rate := rate })
  else
    let s := s.modHost (fun h => { h with linkUp := false, width := 0, rate := 0 })
    { s with power := { s.power with linkFailed := true } }

/-- Step 7 of the boot sequence (Table 21.1): READY is set. What has come in this cycle is served (R433), and so are the SPDM
requests that have waited (R427). -/
def State.setReady (s : State) : State :=
  { s with
    power := { s.power with ready := true, linkNext := false, early := [], spdmq := [] }
    agenda := s.power.early ++ s.power.spdmq ++ s.agenda }

/-- LINK_TRAINING (R416, R431, R432): as step 6 of the boot sequence, or later; in the recovery state the physical function
trains alone. -/
def execLinkTraining (width rate : Nat) (flit : Bool) (s : State) : Host.Outcome State Fault Refusal :=
  if s.power.inReset then .next s
  else
    let s := s.trainLink width rate flit
    .next (if s.power.linkNext then s.setReady else s)

/-- VF_FLR (R417): every context that the function owns is fenced. -/
def execVfFlr (fn : Nat) (s : State) : Host.Outcome State Fault Refusal :=
  if fn = 0 ∨ 16 < fn then .next s else
  .next (((List.range 1024).filter (fun c => (s.ctx c).configured && (s.ctx c).owner == fn)).foldl State.fenceCtx s)

/-! ### BAR0 -/

/-- Vectors of a function (R422). -/
def vectorsOf (fn : Nat) : Nat := if fn = 0 then 1024 else 64

/-- System software assigns a stream to a function, with one of its vectors (R417, R422). DESIGN CHOICE (assumption 128): a
stream or a buffer that it has not assigned belongs to the function that owns its context. -/
def State.assignStream (s : State) (i fn vec : Nat) : State :=
  if 16 < fn ∨ vectorsOf fn ≤ vec then s else s.modStream i (fun x => { x with owner := some fn, vec := vec })

/-- System software assigns a published buffer to a function (R417). -/
def State.assignBuf (s : State) (ctx handle fn : Nat) : State :=
  if 16 < fn then s else s.modCtx ctx (fun c => { c with
    bufs := c.bufs.map (fun b => if b.handle = handle then { b with owner := some fn } else b) })

/-- The stream of a function at a BAR0 offset (Table 20.1). -/
def State.barStream (s : State) (fn off : Nat) : Option (Nat × Stream) :=
  let i := (off - 0x01000000) / 16
  if off < 0x01000000 ∨ 384 ≤ i then none
  else match s.stream i with
    | some x => if s.streamOwner x = fn then some (i, x) else none
    | none => none

/-- Vector of a function at an offset of its MSI-X table. -/
def barVec (fn off : Nat) : Option Nat :=
  let i := (off - 0x03800000) / 16
  if off < 0x03800000 ∨ vectorsOf fn ≤ i then none else some (vecOf fn i)

/-- An entry of an MSI-X table as 128 bits (assumption 100): message address, message data, and the mask bit. -/
def State.vecEntry (s : State) (vec : Nat) : Nat :=
  (aget s.host.msixTab vec).getD 0 + 2 ^ 96 * b2n (s.host.msixMask.contains vec)

/-- An entry of an MSI-X table written (R418, R422). -/
def State.putEntry (s : State) (vec ent : Nat) : State :=
  let s := s.modHost (fun h => { h with
    msixTab := if ent % 2 ^ 96 = 0 then adel h.msixTab vec else aset h.msixTab vec (ent % 2 ^ 96) })
  if bit ent 96 = s.host.msixMask.contains vec then s else if bit ent 96 then s.maskVec vec else s.unmaskVec vec

/-- Core of a boot mailbox at a BAR0 offset of the physical function. -/
def barCore (fn off : Nat) : Option Nat :=
  if fn = 0 ∧ 0x02000000 ≤ off ∧ off < 0x02000000 + 16 * 128 then some ((off - 0x02000000) / 16) else none

/-- The recovery state (R432). -/
def Power.recovering (p : Power) : Bool := !p.ready && !p.inReset && !p.linkNext

/-- A BAR0 offset of a launch mailbox, a boot mailbox or ERR_PTRIG (R433). -/
def readyReg (fn off : Nat) : Bool :=
  off / 8 == 0x00800000 / 8 || (off / 8 == 0x03000000 / 8 && fn == 0) || (barCore fn off).isSome

/-- The state that an outcome leaves, or the one before it. -/
def nextOr (s : State) (o : Host.Outcome State Fault Refusal) : State :=
  match o with
  | .next t => t
  | _ => s

/-- A write of a BAR0 register (R418, R433). In the recovery state there is the physical function alone, and its command
window (R432). -/
def State.barWrite (s : State) (fn off n v : Nat) : State :=
  if s.ideRefuses fn = true ∨ (n ≠ 4 ∧ n ≠ 8) ∨ off % n ≠ 0 then s.unsupported
  else if s.power.recovering then (if fn ≠ 0 ∨ readyReg fn off = true then s.unsupported else s)
  else match barVec fn off with
    | some vec => s.putEntry vec (setFld (s.vecEntry vec) (8 * (off % 16)) (8 * n) v)
    | none =>
      if off / 8 = 0x00800000 / 8 then
        (if n ≠ 8 then s.unsupported else nextOr s (execLaunchMailbox fn v s))
      else if off / 8 = 0x03000000 / 8 ∧ fn = 0 then
        (if n ≠ 8 then s.unsupported else nextOr s (execParapetFire v s))
      else match barCore fn off, s.barStream fn off with
        | some k, _ =>
          if n ≠ 8 then s.unsupported
          else if s.power.ready = false then s.beforeReady (.barWrite fn off n v)
          else if off % 16 = 8 then nextOr s (execBootMailbox k (s.core k).mbImage v s)
          else if (s.core k).pinned then s.modCore k (fun c => { c with mbImage := v % 2 ^ 32 }) else s
        | none, some (i, _) =>
          if n ≠ 8 then s.unsupported
          else if off % 16 = 0 then nextOr s (execBitstreamWrite i v s)
          else s.modStream i (fun x => { x with ovr := x.ovr && !bit v 32, err := x.err && !bit v 33 })
        | none, none => s

/-- The 8 bytes that hold a BAR0 offset, as a read finds them (R418, R432, R433). -/
def State.barDouble (s : State) (fn off : Nat) : Nat :=
  if off = 0 ∧ fn = 0 then fields [(b2n s.power.ready, 63), (s.power.failStep, 8), (s.power.cause, 0)]
  else if s.power.ready = false then 0
  else if off = 0x00800000 then (lget s.host.lmbx fn none).getD 0
  else if 0x03C00000 ≤ off ∧ off < 0x03C00000 + (if fn = 0 then 128 else 8) then
    fields ((List.range 64).map (fun i => (b2n (s.host.msixPend.contains (vecOf fn (8 * (off - 0x03C00000) + i))), i)))
  else match barVec fn off with
    | some vec => fld (s.vecEntry vec) (8 * (off % 16)) 64
    | none => match barCore fn off, s.barStream fn off with
      | some k, _ => if off % 16 = 0 then (s.core k).mbImage else (s.core k).mbArg
      | none, some (_, x) =>
        if off % 16 = 0 then x.bsWrite else fields [(b2n x.err, 33), (b2n x.ovr, 32), (x.bsRead, 0)]
      | none, none => 0

/-- A read of a BAR0 register, completed to the host (R418). -/
def State.barRead (s : State) (fn off n : Nat) : State :=
  if s.ideRefuses fn = true ∨ (n ≠ 4 ∧ n ≠ 8) ∨ off % n ≠ 0 ∨ (s.power.recovering = true ∧ fn ≠ 0) then s.unsupported
  else s.toHost 0x100 (fld (s.barDouble fn (off / 8 * 8)) (8 * (off % 8)) (8 * n))

end Sys2Proof.Machine
end

