-- ==== Sys2Proof/Machine/Energy.lean ====
section
/-! DEFINITION. Boot, reset, power and heat: the boot sequence, resets, losses, limits and gating
(spec/18 R397 and R402, spec/20 R417, spec/21_bringup_and_power.md). -/

namespace Sys2Proof.Machine

/-! ### Reset and boot -/

/-- The device's own state gone, with the power and boot state that is left: the host and peers, what holds the outputs from
outside, and the model's own fields stay. Its units have been free, and its stacks idle, from then on (R438). -/
def State.blank (s : State) (p : Power) (now : Nat) : State :=
  { State.reset with
    power := p, now := now, agenda := s.agenda, free := s.free, cur := s.cur
    cores := State.reset.cores.map (fun c => { c with freeSince := now })
    doms := State.reset.doms.map (fun k => { k with lastAccess := now })
    host := { mem := s.host.mem, outbox := s.host.outbox, msixSent := s.host.msixSent, plain := s.host.plain }
    err := { sense := s.err.sense } }

/-- What a reset finds of a recovery state that no rewrite of the flash has ended: the failing step and its cause. -/
def Power.unmended (p : Power) : Option (Nat × Nat) :=
  if p.inReset then p.recov
  else if p.failStep ≠ 0 ∧ p.rewritten = false then some (p.failStep, p.cause) else none

/-- The device held in reset: the flash stays, and both outputs are asserted (R397, R417). SPDM requests wait (R427), and writes
that came before READY are unsupported (R433). -/
def State.inReset (s : State) (lost : Bool) : State :=
  let s := s.earlyOut
  s.blank { ready := false, inReset := true, lost := lost, flash := s.power.flash, linkFailed := s.power.linkFailed
            resetAt := s.now, spdmq := s.power.spdmq, recov := if lost then none else s.power.unmended } s.now

/-- A unit whose arrays step 5 of the boot sequence could not write is fenced (Table 21.1). -/
def State.bootFence (s : State) (u : UnitId) : State :=
  match u with
  | .weightStore _ => s
  | u => s.fenceUnit u

/-- A signature in the flash verifies against the vendor key there, and that key against the digest in the ROM (Table 21.1). -/
def signedPart (flash : List Nat) (part sig : Nat) : Bool :=
  let key := Config.flashPart 2 flash
  Config.shake256 key == Config.romKeyDigest
    && Config.ed448Ok key (Config.shake256 (Config.flashPart part flash)) (Config.flashPart sig flash)

/-- The identity key that step 2 of the boot sequence reconstructs: none where there is none, or where it does not match the
certificate of slot 0 (Table 21.1, R434). -/
def bootKey (flash : List Nat) (pattern : Nat) : Option (List Nat) :=
  (Config.identity pattern (Config.flashPart 3 flash)).filter (fun k =>
    Config.certSubject (Config.flashPart 6 flash) == Config.publicKey k)

/-- The step of the boot sequence that fails, 0 where steps 1 to 4 all pass (Table 21.1). -/
def bootFail (flash : List Nat) (r : BootResult) : Nat :=
  if signedPart flash 0 1 = false then 1
  else if (bootKey flash r.pattern).isNone = true then 2
  else if signedPart flash 4 5 = false then 3
  else if r.trained = false then 4
  else 0

/-- PLIM of the signed configuration: 600 W to 1,300 W (R437). -/
def bootPlim (flash : List Nat) : Nat := 600 + Config.plimOf (Config.flashPart 4 flash) % 701

/-- POWER_GOOD (R431, R432): steps 1 to 5 of the boot sequence of a device in reset. Link training comes next, which sets READY;
where one of the steps 1 to 4 fails, or a recovery state has not been mended, the device is in the recovery state. -/
def execPowerGood (r : BootResult) (s : State) : Host.Outcome State Fault Refusal :=
  if s.power.inReset = false then .next s else
  let at0 := if s.power.lost then 0 else s.now
  let flash := s.power.flash
  let (step, cause) := s.power.recov.getD (bootFail flash r, r.cause % 256)
  let p : Power := { ready := false, flash := flash, linkFailed := s.power.linkFailed, resetAt := at0 }
  if step ≠ 0 then
    .next { s.blank { p with failStep := step, cause := cause } at0 with agenda := s.power.spdmq ++ s.agenda }
  else
    .next (r.badUnits.foldl State.bootFence (s.blank { p with
      linkNext := true, booted := flash, key := (bootKey flash r.pattern).getD [], plim := bootPlim flash
      spdmq := s.power.spdmq } at0))

/-- PF_FLR (R417): the device resets. -/
def execPfFlr (s : State) : Host.Outcome State Fault Refusal := .next (s.inReset false)

/-- POWER_LOSS (R397): both outputs assert at once, and everything but the flash is lost. -/
def execPowerLoss (s : State) : Host.Outcome State Fault Refusal := .next (s.inReset true)

/-- FLASH_REWRITE (R432): through the command window in the recovery state. -/
def execFlashRewrite (bytes : List Nat) (s : State) : Host.Outcome State Fault Refusal :=
  if s.power.recovering then
    .next { s with power := { s.power with flash := bytes.map (· % 256), rewritten := true } }
  else .next s

/-! ### Limits -/

/-- Power readings of the last 10 ms with a new one, and their mean (R437). DESIGN CHOICE (assumption 146): the module is read
whenever POWER_LIMIT occurs, and the average of a window is the mean of its readings. -/
def Power.read (p : Power) (now watts : Nat) : Power :=
  let rs := (now, watts) :: p.readings.filter (fun r => decide (now < r.1 + 23000000))
  { p with readings := rs, avg := (rs.map Prod.snd).sum / rs.length }

/-- The power, or its average, exceeds PLIM (R437). -/
def Power.over (p : Power) (watts : Nat) : Bool := decide (p.plim < watts) || decide (p.plim < p.avg)

/-- POWER_LIMIT (R437): while the power exceeds PLIM the start delays rise, and once that has not sufficed for 100 µs, placements
are held off where the delay is 8. -/
def execPowerLimit (watts : Nat) (s : State) : Host.Outcome State Fault Refusal :=
  let p := s.power.read s.now watts
  if p.over watts then
    let t0 := p.overSince.getD s.now
    .next { s.setDelay (fun k => min 8 (k + 1)) with
      power := { p with overSince := some t0, delayPlace := decide (t0 + 230000 ≤ s.now) } }
  else
    let s := if s.power.temp ≤ 95 then s.setDelay (fun k => max 1 (k - 1)) else s
    .next { s with power := { p with overSince := none, delayPlace := false } }

/-- THERMAL_LIMIT (R439, Table 21.4): above 95 °C the start delay rises at once, unless it did within the last 100 µs, and then
as time passes. -/
def execThermalLimit (celsius : Nat) (s : State) : Host.Outcome State Fault Refusal :=
  if 115 < celsius then .next (s.inReset false) else
  let p := { s.power with temp := celsius, stopPlace := decide (105 < celsius) }
  if celsius ≤ 95 ∨ s.power.heatAt.any (fun t => decide (s.now < t + 230000)) = true then .next { s with power := p }
  else .next { s.setDelay (fun k => min 8 (k + 1)) with power := { p with heatAt := some s.now } }

/-! ### Gating -/

/-- A core has nothing to run. -/
def Core.free (c : Core) : Bool := !c.ord.live && !c.ord.starting && !c.inPar && c.preempt == 0

/-- CORE_GATE (R402, R438): the commit point of a core that has been free for 10 µs and is no Parapet core; its L1 is clean by
then. What gating loses is lost by the core's wake. -/
def execCoreGate (core : Nat) (s : State) : Host.Outcome State Fault Refusal :=
  let c := s.core core
  if c.free = true ∧ c.gated = false ∧ s.isParapet core = false ∧ c.freeSince + 23000 ≤ s.now then
    .next ((s.drainL1 core).modCore core (fun c => { c with gated := true, gateAt := s.now }))
  else .next s

/-- CLUSTER_GATE (R402, R438): the commit point. -/
def execClusterGate (cluster : Nat) (s : State) : Host.Outcome State Fault Refusal :=
  let c := s.cluster cluster
  if (coresOf cluster).all (fun k => (s.core k).gated) = true ∧ c.gated = false ∧ c.parts.isEmpty = true
      ∧ c.gir.owner.all (·.isNone) = true ∧ s.parCluster cluster = false then
    .next ((s.drainSlice cluster false).modCluster cluster (fun c => { c with gated := true, gateAt := s.now }))
  else .next s

/-- HBM_SELF_REFRESH (R438): 50 µs without an access. -/
def execHbmSelfRefresh (stack : Nat) (s : State) : Host.Outcome State Fault Refusal :=
  if (s.stack stack).lastAccess + 115000 ≤ s.now then
    .next (s.modStack stack (fun x => { x with selfRefresh := true }))
  else .next s

/-- POWER_WAKE (R402): a gated unit is back after its exit latency. -/
def execPowerWake (unit : UnitId) (s : State) : Host.Outcome State Fault Refusal :=
  match unit with
  | .core k => .next ((s.wakeCluster (clusterOf k)).wakeCore k)
  | .cluster n | .girder n => .next (s.wakeCluster n)
  | .stack n => .next (s.modStack n (fun x => { x with selfRefresh := false, lastAccess := s.now }))
  | .weightStore _ => .next s

end Sys2Proof.Machine
end

