-- ==== Sys2Proof/Machine/Scalar.lean ====
section
/-! DEFINITION. The scalar datapath: integer words, conditions, and the S engine's accesses to memory
(spec/06_scalar_instructions.md). -/

namespace Sys2Proof.Machine

/-- NOP (R52). -/
def execNop (s : State) : Host.Outcome State Fault Refusal := word .s s (.ok s)

/-- ALU (R121). -/
def execAlu (f : AluFn) (d a b : Nat) (g : Guard) (s : State) : Host.Outcome State Fault Refusal :=
  word .s s (guarded g s (.ok (s.wrS d 1 (aluFn f (s.rdS d) (s.rdS a) (s.rdS b)))))

/-- MULDIV (R120, R122): the divider accepts one operation every 8 cycles. -/
def execMuldiv (f : MulFn) (d a b : Nat) (g : Guard) (s : State) : Host.Outcome State Fault Refusal :=
  word .s s (guarded g s (
    let v := mulFn f (s.rdS a) (s.rdS b)
    if usesDivider f then
      if s.now < s.st.divAt then .error .stall
      else .ok ((s.wrS d 24 v).modSt (fun t => { t with divAt := s.now + 8 }))
    else .ok (s.wrS d 3 v)))

/-- An immediate word: an ALU function with an immediate second operand (R123). -/
def immOp (f : AluFn) (d a : Nat) (imm : Dbl) (s : State) : Host.Outcome State Fault Refusal :=
  word .s s (.ok (s.wrS d 1 (aluFn f 0#64 (s.rdS a) imm)))

/-- ADDI (R123). -/
def execAddi (d a imm : Nat) (s : State) : Host.Outcome State Fault Refusal := immOp .add d a (simm14 imm) s
/-- ANDI (R123). -/
def execAndi (d a imm : Nat) (s : State) : Host.Outcome State Fault Refusal := immOp .and d a (zimm14 imm) s
/-- ORI (R123). -/
def execOri (d a imm : Nat) (s : State) : Host.Outcome State Fault Refusal := immOp .or d a (zimm14 imm) s
/-- XORI (R123). -/
def execXori (d a imm : Nat) (s : State) : Host.Outcome State Fault Refusal := immOp .xor d a (zimm14 imm) s
/-- SHLI (R123). -/
def execShli (d a cnt : Nat) (s : State) : Host.Outcome State Fault Refusal := immOp .shl d a (zimm14 cnt) s
/-- SHRI (R123). -/
def execShri (d a cnt : Nat) (s : State) : Host.Outcome State Fault Refusal := immOp .shr d a (zimm14 cnt) s
/-- SRAI (R123). -/
def execSrai (d a cnt : Nat) (s : State) : Host.Outcome State Fault Refusal := immOp .sra d a (zimm14 cnt) s

/-- LUI (R124). -/
def execLui (d imm : Nat) (s : State) : Host.Outcome State Fault Refusal :=
  word .s s (.ok (s.wrS d 1 (BitVec.ofInt 64 (sextInt 33 (imm * 2 ^ 14)))))

/-- LUH (R124): bits 32:0 of s[D] kept. -/
def execLuh (d imm : Nat) (s : State) : Host.Outcome State Fault Refusal :=
  word .s s (.ok (s.wrS d 1 (BitVec.ofNat 64 (wrapInt 31 (sextInt 19 imm) * 2 ^ 33 + (s.rdS d).toNat % 2 ^ 33))))

/-- CMP (R86). -/
def execCmp (r : Rel) (c a b : Nat) (g : Guard) (s : State) : Host.Outcome State Fault Refusal :=
  word .s s (guarded g s (.ok (s.putC c (relation r (s.rdS a) (s.rdS b)))))

/-- CMPI (R86): the immediate is sign-extended for every relation. -/
def execCmpi (r : Rel) (c a imm : Nat) (s : State) : Host.Outcome State Fault Refusal :=
  word .s s (.ok (s.putC c (relation r (s.rdS a) (simm14 imm))))

/-- LEA (R125). -/
def execLea (d a b sh : Nat) (g : Guard) (s : State) : Host.Outcome State Fault Refusal :=
  word .s s (guarded g s (.ok (s.wrS d 1 (s.rdS a + s.rdS b <<< sh))))

/-- CMOV, form CTOS (R126). -/
def execCtos (d : Nat) (g : Guard) (s : State) : Host.Outcome State Fault Refusal :=
  word .s s (guarded g s (.ok (s.wrS d 1 (s.st.regs.c.zeroExtend 64))))

/-- CMOV, form STOC (R126). -/
def execStoc (a : Nat) (g : Guard) (s : State) : Host.Outcome State Fault Refusal :=
  word .s s (guarded g s (.ok (s.putConds ((s.rdS a).toNat % 16))))

/-- A load of format SM (R129): it follows the earlier stores of its class, and until it returns its value may still be
fixed at a later moment (R229). -/
def loadWord (signed : Bool) (d a oc : Nat) (sz : Size) (off : Nat) (s : State) :
    Host.Outcome State Fault Refusal :=
  wordPre .s s (do
    let n := sizeBytes sz
    wait (!s.st.storing .s (some oc))
    let va := s.effAddr a 8 off n
    let (v, s) ← s.loadN va n oc
    s.returnS d (extend n signed v) oc [{ va := va, bytes := n, ext := some signed }])

/-- LD (R129). -/
def execLd (d a oc : Nat) (sz : Size) (off : Nat) (s : State) : Host.Outcome State Fault Refusal :=
  loadWord false d a oc sz off s

/-- LDS (R129). -/
def execLds (d a oc : Nat) (sz : Size) (off : Nat) (s : State) : Host.Outcome State Fault Refusal :=
  loadWord true d a oc sz off s

/-- ST (R129): with D = 0 it stores zeros. It performs at issue, after the earlier accesses of its class; the turn .later
lets it perform later (R229). -/
def execSt (d a oc : Nat) (sz : Size) (off : Nat) (s : State) : Host.Outcome State Fault Refusal :=
  wordPre .s s (do
    let n := sizeBytes sz
    wait (!s.st.storing .s (some oc))
    let s ← s.storeN (s.effAddr a 8 off n) n oc (s.rdS d).toNat
    pure (s.modSt (fun t => t.fixed .s (· == oc))))

/-- LDA (R130): the load, then an acquire over every class. -/
def execLda (d a oc : Nat) (sc : Scope) (sz : WSize) (off : Nat) (s : State) : Host.Outcome State Fault Refusal :=
  wordPre .s s (do
    let n := wsizeBytes sz
    let (v, s) ← s.loadN (s.effAddr a 5 off n) n oc
    let s ← s.returnS d v
    pure (s.acquire s.cur sc allClasses))

/-- STL (R130): a release over every class, then the store. The address is checked first. -/
def execStl (d a oc : Nat) (sc : Scope) (sz : WSize) (off : Nat) (s : State) : Host.Outcome State Fault Refusal :=
  wordPre .s s (do
    let n := wsizeBytes sz
    let (t, s') ← s.reach (s.effAddr a 5 off n) n .wr
    let s' ← s'.scrubW t n
    let s' ← s'.releaseBy s.cur sc
    pure (s'.writeTarget s.cur t oc (bytesLE n (s.rdS d).toNat)))

/-- AMO (R131). -/
def execAmo (f : AmoFn) (d a b : Nat) (sc : Scope) (sz : WSize) (s : State) : Host.Outcome State Fault Refusal :=
  wordPre .s s (do
    let n := wsizeBytes sz
    let va := (s.rdS a).toNat
    wait s.st.vamo.isNone
    let (t, s') ← s.reach va n .amo
    needAt (!t.isBus || amoBus f) .permission va
    let (old, s') ← s'.atomic s.cur t n sc (fun old => some (amoFn f (8 * n) old ((s.rdS b).toNat % 2 ^ (8 * n))))
    s'.returnS d old)

/-- CAS (R132). -/
def execCas (d a b : Nat) (sc : Scope) (sz : WSize) (s : State) : Host.Outcome State Fault Refusal :=
  wordPre .s s (do
    let n := wsizeBytes sz
    wait s.st.vamo.isNone
    let (t, s') ← s.reach (s.rdS a).toNat n .amo
    let cmp := (s.rdS d).toNat % 2 ^ (8 * n)
    let (old, s') ← s'.atomic s.cur t n sc (fun old =>
      if old = cmp then some ((s.rdS b).toNat % 2 ^ (8 * n)) else none)
    s'.returnS d old)

/-- FENCE (R234): a release, an acquire, or both, complete at issue (assumption 8). -/
def execFence (k : FenceKind) (sc : Scope) (cm : Nat) (s : State) : Host.Outcome State Fault Refusal :=
  wordPre .s s (match k with
    | .rel => s.releaseBy s.cur sc
    | .acq => .ok (s.acquire s.cur sc cm)
    | .full => (s.releaseBy s.cur sc).map (fun s' => s'.acquire s.cur sc cm))

/-- Line keys, as intervals, of n bytes from an address that lie in one page and on one side of every end of an aperture;
an unmapped page and the uncached windows have none (R235). -/
def State.keyRange (s : State) (k a n : Nat) : Res (List (Nat × Nat) × State) :=
  let c := (s.strand k).task.ctx
  match window a with
  | .translated =>
    match (s.ctx c).bufAt a with
    | some (b, e, off) =>
      let pa := extPhys b.desc (s.readSide k b e) e + off
      .ok ([(pa, pa + n)], s)
    | none =>
    match (s.ctx c).apAt a with
    | some ap =>
      let off := a - ap.desc.abase
      let lo := apKey c ap.idx off + off % 128
      .ok ([(lo, lo + n)], s)
    | none =>
      match s.xlateNow k false a with
      | .ok (e, s) => .ok ([(e.pa a, e.pa a + n)], s)
      | .error (.partly s f) => if f.code = .translation then .ok ([], s) else .error (.partly s f)
      | .error (.fault f) => if f.code = .translation then .ok ([], s) else .error (.fault f)
      | .error x => .error x
  | _ => .ok ([], s)

/-- Where the apertures of a context end inside a range of one page. -/
def Ctx.apEnds (c : Ctx) (lo hi : Nat) : List Nat :=
  (c.aps.map (fun a => a.desc.abase + apBytes a.desc)).filter (fun e => decide (lo < e) && decide (e < hi))

/-- Line keys, as intervals, that addresses lo to hi - 1 reach, page by page (R235). -/
def State.keyRanges (s : State) (k lo hi : Nat) : Res (List (Nat × Nat) × State) :=
  let c := s.ctx (s.strand k).task.ctx
  (List.range ((hi - 1) / 4096 - lo / 4096 + 1)).foldlM (fun p i =>
    let q := (lo / 4096 + i) * 4096
    let a := max lo q
    let z := min hi (q + 4096)
    (a :: c.apEnds a z).foldlM (fun (p : List (Nat × Nat) × State) b => do
      let n := ((c.apEnds b z).foldl min z) - b
      let (r, s) ← p.2.keyRange k b n
      pure (p.1 ++ r, s)) p) ([], s)

/-- A line overlaps one of the intervals. -/
def overlaps (rs : List (Nat × Nat)) (key : Nat) : Bool :=
  rs.any (fun r => decide (key < r.2) && decide (r.1 < key + 128))

/-- CMAINT on the L1 of a core: only it can lose dirty bytes (R235). -/
def State.maintL1 (s : State) (k : Nat) (op : CmOp) (rs : List (Nat × Nat)) : State :=
  let mine := (s.core k).l1.filter (fun l => overlaps rs l.key)
  let s := if op = .inv then s else
    (mine.filter (fun l => l.dirty != 0#128)).foldl (fun s l => s.toSlice k l) s
  let keep (ls : List Line) :=
    if op = .clean then ls.map (fun l => if overlaps rs l.key then l.cleaned else l)
    else ls.filter (fun l => !overlaps rs l.key)
  s.modCore k (fun c => { c with l1 := keep c.l1 })

/-- CMAINT on a cluster's slice: invalidate cleans first (R235). -/
def State.maintSlice (s : State) (n : Nat) (op : CmOp) (rs : List (Nat × Nat)) : State :=
  let mine := (s.cluster n).slice.filter (fun l => overlaps rs l.key)
  let s := (mine.filter (fun l => l.dirty != 0#128)).foldl (State.toHome · n false) s
  let keep (ls : List Line) :=
    if op = .clean then ls.map (fun l => if overlaps rs l.key then l.cleaned else l)
    else ls.filter (fun l => !overlaps rs l.key)
  s.modCluster n (fun c => { c with slice := keep c.slice })

/-- CMAINT on the homes: their bytes written into HBM (R235). -/
def State.maintHome (s : State) (rs : List (Nat × Nat)) : State :=
  s.mscWrite (overlaps rs)

/-- CMAINT (R235): its faults in order, then every line of the range at the level. -/
def execCmaint (op : CmOp) (lv : CmLevel) (a b : Nat) (g : Guard) (s : State) : Host.Outcome State Fault Refusal :=
  guardedPre g s (do
    let lo := (s.rdS a).toNat
    let n := (s.rdS b).toNat
    need (bit s.st.task.flags 1) .privilege
    need (decide (n ≤ 2 ^ 30)) .illegalOperand
    needAt (decide (lo + n ≤ 2 ^ 48)) .translation lo
    if n = 0 then pure s else
    let (rs, s) ← s.keyRanges s.cur lo (lo + n)
    s.ueSince (match lv with
      | .l1 => s.maintL1 s.cur op rs
      | .slice => s.maintSlice (clusterOf s.cur) op rs
      | .msc => s.maintHome rs))

/-- PTG (R85): the target must lie in the text, a precise decode fault. -/
def execPtg (bt imm : Nat) (s : State) : Host.Outcome State Fault Refusal :=
  word .s s (do
    let t ← s.relTarget .s imm
    pure (s.putB bt t))

end Sys2Proof.Machine
end

