-- ==== Sys2Proof/Machine/Dispatch.lean ====
section
/-! DEFINITION. One arm per operation and event of the opcode table: each calls its meaning. -/

namespace Sys2Proof.Machine

/-- The effect of an operation or event on the device. -/
def exec (i : Instr) (s : State) : Host.Outcome State Fault Refusal :=
  match i with
  | .nop => Sys2Proof.Machine.execNop s
  | .alu f d a b g => Sys2Proof.Machine.execAlu f d a b g s
  | .muldiv f d a b g => Sys2Proof.Machine.execMuldiv f d a b g s
  | .addi d a imm => Sys2Proof.Machine.execAddi d a imm s
  | .andi d a imm => Sys2Proof.Machine.execAndi d a imm s
  | .ori d a imm => Sys2Proof.Machine.execOri d a imm s
  | .xori d a imm => Sys2Proof.Machine.execXori d a imm s
  | .shli d a cnt => Sys2Proof.Machine.execShli d a cnt s
  | .shri d a cnt => Sys2Proof.Machine.execShri d a cnt s
  | .srai d a cnt => Sys2Proof.Machine.execSrai d a cnt s
  | .lui d imm => Sys2Proof.Machine.execLui d imm s
  | .luh d imm => Sys2Proof.Machine.execLuh d imm s
  | .cmp r c a b g => Sys2Proof.Machine.execCmp r c a b g s
  | .cmpi r c a imm => Sys2Proof.Machine.execCmpi r c a imm s
  | .lea d a b sh g => Sys2Proof.Machine.execLea d a b sh g s
  | .ctos d g => Sys2Proof.Machine.execCtos d g s
  | .stoc a g => Sys2Proof.Machine.execStoc a g s
  | .ld d a oc sz off => Sys2Proof.Machine.execLd d a oc sz off s
  | .lds d a oc sz off => Sys2Proof.Machine.execLds d a oc sz off s
  | .st d a oc sz off => Sys2Proof.Machine.execSt d a oc sz off s
  | .lda d a oc sc sz off => Sys2Proof.Machine.execLda d a oc sc sz off s
  | .stl d a oc sc sz off => Sys2Proof.Machine.execStl d a oc sc sz off s
  | .amo f d a b sc sz => Sys2Proof.Machine.execAmo f d a b sc sz s
  | .cas d a b sc sz => Sys2Proof.Machine.execCas d a b sc sz s
  | .fence k sc cm => Sys2Proof.Machine.execFence k sc cm s
  | .cmaint op lv a b g => Sys2Proof.Machine.execCmaint op lv a b g s
  | .waita r sz d a b g => Sys2Proof.Machine.execWaita r sz d a b g s
  | .barArrive d a g => Sys2Proof.Machine.execBarArrive d a g s
  | .barExpect a b g => Sys2Proof.Machine.execBarExpect a b g s
  | .barWait a b g => Sys2Proof.Machine.execBarWait a b g s
  | .barArriveExpect d a b g => Sys2Proof.Machine.execBarArriveExpect d a b g s
  | .fput a b g => Sys2Proof.Machine.execFput a b g s
  | .fget d a g => Sys2Proof.Machine.execFget d a g s
  | .fpeek d a g => Sys2Proof.Machine.execFpeek d a g s
  | .ptg bt imm => Sys2Proof.Machine.execPtg bt imm s
  | .xfer bt l u ci cs bm => Sys2Proof.Machine.execXfer bt l u ci cs bm s
  | .trap d code => Sys2Proof.Machine.execTrap d code s
  | .halt => Sys2Proof.Machine.execHalt s
  | .wait m => Sys2Proof.Machine.execWait m s
  | .evwait e mode => Sys2Proof.Machine.execEvwait e mode s
  | .evsig e => Sys2Proof.Machine.execEvsig e s
  | .evclr e => Sys2Proof.Machine.execEvclr e s
  | .qpush sel a => Sys2Proof.Machine.execQpush sel a s
  | .qpop sel d => Sys2Proof.Machine.execQpop sel d s
  | .fpush a => Sys2Proof.Machine.execFpush a s
  | .pset p a => Sys2Proof.Machine.execPset p a s
  | .qmark m => Sys2Proof.Machine.execQmark m s
  | .sqdrain sel => Sys2Proof.Machine.execSqdrain sel s
  | .talloc k d a b g => Sys2Proof.Machine.execTalloc k d a b g s
  | .tseal a g => Sys2Proof.Machine.execTseal a g s
  | .tread d a g => Sys2Proof.Machine.execTread d a g s
  | .tret a g => Sys2Proof.Machine.execTret a g s
  | .spawn a g => Sys2Proof.Machine.execSpawn a g s
  | .join d a g => Sys2Proof.Machine.execJoin d a g s
  | .commit => Sys2Proof.Machine.execCommit s
  | .yield => Sys2Proof.Machine.execYield s
  | .sysrd d idx => Sys2Proof.Machine.execSysrd d idx s
  | .syswr a idx => Sys2Proof.Machine.execSyswr a idx s
  | .psnap d a g => Sys2Proof.Machine.execPsnap d a g s
  | .prel a g => Sys2Proof.Machine.execPrel a g s
  | .vnop => Sys2Proof.Machine.execVnop s
  | .vadd d a b ty sg u => Sys2Proof.Machine.execVadd d a b ty sg u s
  | .vsub d a b ty sg u => Sys2Proof.Machine.execVsub d a b ty sg u s
  | .vmul d a b ty sg u => Sys2Proof.Machine.execVmul d a b ty sg u s
  | .vfma d a b ty sg u => Sys2Proof.Machine.execVfma d a b ty sg u s
  | .vfnma d a b ty sg u => Sys2Proof.Machine.execVfnma d a b ty sg u s
  | .vmin d a b ty u => Sys2Proof.Machine.execVmin d a b ty u s
  | .vmax d a b ty u => Sys2Proof.Machine.execVmax d a b ty u s
  | .vun f d a ty => Sys2Proof.Machine.execVun f d a ty s
  | .vlog f d a b ty => Sys2Proof.Machine.execVlog f d a b ty s
  | .vsh f d a b ty => Sys2Proof.Machine.execVsh f d a b ty s
  | .vaddi d a imm => Sys2Proof.Machine.execVaddi d a imm s
  | .vmulw d a b ty u => Sys2Proof.Machine.execVmulw d a b ty u s
  | .vaddw d a b ty sg u => Sys2Proof.Machine.execVaddw d a b ty sg u s
  | .vnarr d a ty sg u => Sys2Proof.Machine.execVnarr d a ty sg u s
  | .vcmp r u a b ty => Sys2Proof.Machine.execVcmp r u a b ty s
  | .velse => Sys2Proof.Machine.execVelse s
  | .vend => Sys2Proof.Machine.execVend s
  | .vvote q all => Sys2Proof.Machine.execVvote q all s
  | .vsel d a b ty => Sys2Proof.Machine.execVsel d a b ty s
  | .vbq sg imm => Sys2Proof.Machine.execVbq sg imm s
  | .vcvt d a mode sty ty sg u => Sys2Proof.Machine.execVcvt d a mode sty ty sg u s
  | .vquant d a b ty sg => Sys2Proof.Machine.execVquant d a b ty sg s
  | .vdeq d a b ty => Sys2Proof.Machine.execVdeq d a b ty s
  | .vrint d a ty mode => Sys2Proof.Machine.execVrint d a ty mode s
  | .vexp2f d a => Sys2Proof.Machine.execVexp2f d a s
  | .vscaleb d a b => Sys2Proof.Machine.execVscaleb d a b s
  | .vrcp d a ty => Sys2Proof.Machine.execVrcp d a ty s
  | .vrsq d a ty => Sys2Proof.Machine.execVrsq d a ty s
  | .vred f d a ty => Sys2Proof.Machine.execVred f d a ty s
  | .vtopk d a b ty => Sys2Proof.Machine.execVtopk d a b ty s
  | .vperm d a b ty => Sys2Proof.Machine.execVperm d a b ty s
  | .vshuf d a b ty => Sys2Proof.Machine.execVshuf d a b ty s
  | .vbcast d a w idx => Sys2Proof.Machine.execVbcast d a w idx s
  | .viota d imm => Sys2Proof.Machine.execViota d imm s
  | .vslide d a w n => Sys2Proof.Machine.execVslide d a w n s
  | .vtr d t dir idx cv mode => Sys2Proof.Machine.execVtr d t dir idx cv mode s
  | .vtw a t dir idx cv mode => Sys2Proof.Machine.execVtw a t dir idx cv mode s
  | .vqpush q a => Sys2Proof.Machine.execVqpush q a s
  | .vqdrain => Sys2Proof.Machine.execVqdrain s
  | .vwait m => Sys2Proof.Machine.execVwait m s
  | .vamo f d a w sc sg ty => Sys2Proof.Machine.execVamo f d a w sc sg ty s
  | .vgath d a w sc sg ty => Sys2Proof.Machine.execVgath d a w sc sg ty s
  | .vscat d a w sc sg ty => Sys2Proof.Machine.execVscat d a w sc sg ty s
  | .mnop => Sys2Proof.Machine.execMnop s
  | .tcfg d keep ty => Sys2Proof.Machine.execTcfg d keep ty s
  | .tzero d => Sys2Proof.Machine.execTzero d s
  | .tld d dd oc w => Sys2Proof.Machine.execTld d dd oc w s
  | .tst a da oc w => Sys2Proof.Machine.execTst a da oc w s
  | .tmov d dd a da => Sys2Proof.Machine.execTmov d dd a da s
  | .tscal d dd a da => Sys2Proof.Machine.execTscal d dd a da s
  | .tadd d dd a da b db => Sys2Proof.Machine.execTadd d dd a da b db s
  | .mlease => Sys2Proof.Machine.execMlease s
  | .mfree => Sys2Proof.Machine.execMfree s
  | .mmark => Sys2Proof.Machine.execMmark s
  | .mset k f imm => Sys2Proof.Machine.execMset k f imm s
  | .msetq k f => Sys2Proof.Machine.execMsetq k f s
  | .missue k q => Sys2Proof.Machine.execMissue k q s
  | .mwait m => Sys2Proof.Machine.execMwait m s
  | .mbq sg imm => Sys2Proof.Machine.execMbq sg imm s
  | .mqdrain => Sys2Proof.Machine.execMqdrain s
  | .mbond n imm => Sys2Proof.Machine.execMbond n imm s
  | .morder => Sys2Proof.Machine.execMorder s
  | .kload => Sys2Proof.Machine.execKload s
  | .kperm f r => Sys2Proof.Machine.execKperm f r s
  | .cnop => Sys2Proof.Machine.execCnop s
  | .cset k f imm => Sys2Proof.Machine.execCset k f imm s
  | .csetq k f => Sys2Proof.Machine.execCsetq k f s
  | .cissue k q => Sys2Proof.Machine.execCissue k q s
  | .ccode idx => Sys2Proof.Machine.execCcode idx s
  | .cwait m => Sys2Proof.Machine.execCwait m s
  | .cbq sg imm => Sys2Proof.Machine.execCbq sg imm s
  | .cqdrain => Sys2Proof.Machine.execCqdrain s
  | .cmlist l w => Sys2Proof.Machine.execCmlist l w s
  | .waitaTimeout core => Sys2Proof.Machine.execWaitaTimeout core s
  | .keystoneRewrite core => Sys2Proof.Machine.execKeystoneRewrite core s
  | .cmlistListWrite core idx => Sys2Proof.Machine.execCmlistListWrite core idx s
  | .memoryReturn core idx => Sys2Proof.Machine.execMemoryReturn core idx s
  | .copy core q => Sys2Proof.Machine.execCopy core q s
  | .copyz core q => Sys2Proof.Machine.execCopyz core q s
  | .gathl core q => Sys2Proof.Machine.execGathl core q s
  | .scatl core q => Sys2Proof.Machine.execScatl core q s
  | .motion core q => Sys2Proof.Machine.execMotion core q s
  | .pgath core q => Sys2Proof.Machine.execPgath core q s
  | .fill core q => Sys2Proof.Machine.execFill core q s
  | .wstore core q => Sys2Proof.Machine.execWstore core q s
  | .commandCompletion unit => Sys2Proof.Machine.execCommandCompletion unit s
  | .gemm cluster => Sys2Proof.Machine.execGemm cluster s
  | .conv cluster => Sys2Proof.Machine.execConv cluster s
  | .chain cluster => Sys2Proof.Machine.execChain cluster s
  | .accrd cluster => Sys2Proof.Machine.execAccrd cluster s
  | .accz cluster => Sys2Proof.Machine.execAccz cluster s
  | .wload cluster => Sys2Proof.Machine.execWload cluster s
  | .girderMigration cluster idx target => Sys2Proof.Machine.execGirderMigration cluster idx target s
  | .leaseGrant cluster => Sys2Proof.Machine.execLeaseGrant cluster s
  | .leaseLapseCycles cluster => Sys2Proof.Machine.execLeaseLapseCycles cluster s
  | .watchdog core => Sys2Proof.Machine.execWatchdog core s
  | .postcommitLong core => Sys2Proof.Machine.execPostcommitLong core s
  | .commitStep gang => Sys2Proof.Machine.execCommitStep gang s
  | .haltBundleRetire core => Sys2Proof.Machine.execHaltBundleRetire core s
  | .launchMailbox fn val => Sys2Proof.Machine.execLaunchMailbox fn val s
  | .dispatch => Sys2Proof.Machine.execDispatch s
  | .quotaEvaluation => Sys2Proof.Machine.execQuotaEvaluation s
  | .spillRefill => Sys2Proof.Machine.execSpillRefill s
  | .bootMailbox core image arg => Sys2Proof.Machine.execBootMailbox core image arg s
  | .strandStart core => Sys2Proof.Machine.execStrandStart core s
  | .imageRegister handle ctxs bytes => Sys2Proof.Machine.execImageRegister handle ctxs bytes s
  | .bitstreamWrite stream val => Sys2Proof.Machine.execBitstreamWrite stream val s
  | .frameDelivery stream data => Sys2Proof.Machine.execFrameDelivery stream data s
  | .decodeError stream => Sys2Proof.Machine.execDecodeError stream s
  | .layerDecision stream layer => Sys2Proof.Machine.execLayerDecision stream layer s
  | .cmuDeferredWrite core idx val => Sys2Proof.Machine.execCmuDeferredWrite core idx val s
  | .slipwWrite core val => Sys2Proof.Machine.execSlipwWrite core val s
  | .keyCtlWrite core val => Sys2Proof.Machine.execKeyCtlWrite core val s
  | .parapetFire val => Sys2Proof.Machine.execParapetFire val s
  | .parapetArm val => Sys2Proof.Machine.execParapetArm val s
  | .parapetDisarm val => Sys2Proof.Machine.execParapetDisarm val s
  | .parapetClr => Sys2Proof.Machine.execParapetClr s
  | .parapetDesignate val => Sys2Proof.Machine.execParapetDesignate val s
  | .parapetPreempt core => Sys2Proof.Machine.execParapetPreempt core s
  | .haltRequest core val => Sys2Proof.Machine.execHaltRequest core val s
  | .partnerTimeout => Sys2Proof.Machine.execPartnerTimeout s
  | .parapetDeadline => Sys2Proof.Machine.execParapetDeadline s
  | .outputSense out => Sys2Proof.Machine.execOutputSense out s
  | .errCorrClr core => Sys2Proof.Machine.execErrCorrClr core s
  | .debugStop core => Sys2Proof.Machine.execDebugStop core s
  | .debugResume core => Sys2Proof.Machine.execDebugResume core s
  | .contextConfigure ctx cfg => Sys2Proof.Machine.execContextConfigure ctx cfg s
  | .pipelineInstanceCreate ctx req => Sys2Proof.Machine.execPipelineInstanceCreate ctx req s
  | .pipelineInstanceDestroy ctx => Sys2Proof.Machine.execPipelineInstanceDestroy ctx s
  | .carveSet cluster units => Sys2Proof.Machine.execCarveSet cluster units s
  | .publishedBufferCreate ctx handle desc => Sys2Proof.Machine.execPublishedBufferCreate ctx handle desc s
  | .apertureCreate ctx idx desc => Sys2Proof.Machine.execApertureCreate ctx idx desc s
  | .streamCreate stream ctx desc => Sys2Proof.Machine.execStreamCreate stream ctx desc s
  | .xidRecordWrite xid xrec => Sys2Proof.Machine.execXidRecordWrite xid xrec s
  | .contextUnfence ctx => Sys2Proof.Machine.execContextUnfence ctx s
  | .returnToService unit => Sys2Proof.Machine.execReturnToService unit s
  | .predictiveFailure unit => Sys2Proof.Machine.execPredictiveFailure unit s
  | .invalPage xid page => Sys2Proof.Machine.execInvalPage xid page s
  | .invalXid xid => Sys2Proof.Machine.execInvalXid xid s
  | .invalAll => Sys2Proof.Machine.execInvalAll s
  | .invalidationDone => Sys2Proof.Machine.execInvalidationDone s
  | .pageWalk stack walker => Sys2Proof.Machine.execPageWalk stack walker s
  | .pageMigration xid va frame phase => Sys2Proof.Machine.execPageMigration xid va frame phase s
  | .dirtyLineDrain lv unit idx => Sys2Proof.Machine.execDirtyLineDrain lv unit idx s
  | .wstRefreshSlot group => Sys2Proof.Machine.execWstRefreshSlot group s
  | .inboundWrite fn off bytes => Sys2Proof.Machine.execInboundWrite fn off bytes s
  | .inboundRead fn off n noSnoop => Sys2Proof.Machine.execInboundRead fn off n noSnoop s
  | .inboundAtomic fn off op sz => Sys2Proof.Machine.execInboundAtomic fn off op sz s
  | .atsInvalidation fn pasid page n => Sys2Proof.Machine.execAtsInvalidation fn pasid page n s
  | .msixUnmask vec => Sys2Proof.Machine.execMsixUnmask vec s
  | .ideKeyProgram stream key => Sys2Proof.Machine.execIdeKeyProgram stream key s
  | .getVersion => Sys2Proof.Machine.execGetVersion s
  | .getCapabilities => Sys2Proof.Machine.execGetCapabilities s
  | .negotiateAlgorithms asym hash => Sys2Proof.Machine.execNegotiateAlgorithms asym hash s
  | .getDigests => Sys2Proof.Machine.execGetDigests s
  | .getCertificate slot off len => Sys2Proof.Machine.execGetCertificate slot off len s
  | .setCertificate slot chain => Sys2Proof.Machine.execSetCertificate slot chain s
  | .challenge slot nonce => Sys2Proof.Machine.execChallenge slot nonce s
  | .getMeasurements idx nonce => Sys2Proof.Machine.execGetMeasurements idx nonce s
  | .keyExchange slot nonce => Sys2Proof.Machine.execKeyExchange slot nonce s
  | .finish mac => Sys2Proof.Machine.execFinish mac s
  | .endSession => Sys2Proof.Machine.execEndSession s
  | .linkTraining width rate flit => Sys2Proof.Machine.execLinkTraining width rate flit s
  | .vfFlr fn => Sys2Proof.Machine.execVfFlr fn s
  | .pfFlr => Sys2Proof.Machine.execPfFlr s
  | .powerGood r => Sys2Proof.Machine.execPowerGood r s
  | .powerLoss => Sys2Proof.Machine.execPowerLoss s
  | .powerLimit watts => Sys2Proof.Machine.execPowerLimit watts s
  | .thermalLimit celsius => Sys2Proof.Machine.execThermalLimit celsius s
  | .coreGate core => Sys2Proof.Machine.execCoreGate core s
  | .clusterGate cluster => Sys2Proof.Machine.execClusterGate cluster s
  | .hbmSelfRefresh stack => Sys2Proof.Machine.execHbmSelfRefresh stack s
  | .powerWake unit => Sys2Proof.Machine.execPowerWake unit s
  | .storePerformed core idx => Sys2Proof.Machine.execStorePerformed core idx s
  | .managementPathWrite unit idx val => Sys2Proof.Machine.execManagementPathWrite unit idx val s
  | .pageRetire page => Sys2Proof.Machine.execPageRetire page s
  | .streamReclaim stream => Sys2Proof.Machine.execStreamReclaim stream s
  | .flashRewrite bytes => Sys2Proof.Machine.execFlashRewrite bytes s
  | .pinnedServiceWithdrawal core back => Sys2Proof.Machine.execPinnedServiceWithdrawal core back s

end Sys2Proof.Machine
end

