-- ==== Sys2Proof/Machine/Later.lean ====
section
/-! DEFINITION. The other ways in which the ordering rules let accesses perform: a store later than its issue, a load's value
fixed later than its first reading, and the elements of a VAMO one by one (R48, R182, R183, R229). -/

namespace Sys2Proof.Machine

/-- A word that issues with its access still to perform: ST (R229) and VAMO (R182). Every other word issues as it does
otherwise. -/
def execLater (i : Instr) (s : State) : Host.Outcome State Fault Refusal :=
  match i with
  | .st d a oc sz off => wordPre .s s (do
      let n := sizeBytes sz
      let va := s.effAddr a 8 off n
      let (t, s') ← s.reach va n .wr
      let ws := (bytesLE n (s.rdS d).toNat).mapIdx (fun j b => (t.plus j, b))
      pure (s'.modSt (fun x => { x with psts := x.psts ++
        [{ tok := none, cls := oc, eng := .s, text := x.es.pc, writes := ws, via := s'.viaOf [va] }] })))
  | .vamo f d a w sc sg _ => wordPre .v s (do
      let (x, ts, s) ← s.vamoIssue d a w sc sg
      pure (s.modSt (fun t => { t with vamo := some { f := f, tok := w, dst := vamoDst d, x := x, todo := ts } })))
  | i => exec i s

/-- The next element of a VAMO reaches its bank; after the last one its old values are on their way (R182). -/
def State.vamoStep (s : State) (core : Nat) : State :=
  match (s.strand core).vamo with
  | none => s
  | some v =>
    match v.todo with
    | [] => s.modStrand core (fun t => { t with vamo := none, rets := t.rets ++ [vamoRet v.dst v.tok v.vs] })
    | (i, t) :: l =>
      match s.atomic core t 4 .cluster (fun old => some (vamoFn v.f old (lane 32 i v.x))) with
      | .error (.fault f) =>
        takeFault { f with engine := 1, text := (s.strand core).ev.pc, precise := false, lane := i } { s with cur := core }
      | .error _ => s
      | .ok (old, s) => s.modStrand core (fun t => { t with vamo := some { v with todo := l, vs := v.vs ++ [(i, old)] } })

/-- An element of a return read anew: where its address leads when it performs, so that the backing of a published buffer, and
the translation, are those of that moment (R229, R238, R240, R411). -/
def State.reread (s : State) (core : Nat) (r : Ret) (e : RetSrc) : Res (Ret × State) := do
  let (t, s) ← s.resolve core e.va .rd
  let (bs, s) ← s.readTarget core t e.bytes r.cls
  pure ({ r with val := match e.ext with
    | some signed => extend e.bytes signed (natLE bs)
    | none => setFld r.val e.pos (8 * e.bytes) (natLE bs) }, s)

/-- Elements of a return read anew, in order. -/
def State.rereads (s : State) (core : Nat) (r : Ret) : List RetSrc → Res (Ret × State)
  | [] => .ok (r, s)
  | e :: l => do
    let (r, s) ← s.reread core r e
    s.rereads core r l

/-- Returns of an engine and class, from place j on, read anew whole, in program order (R229). -/
def State.rereadAll (s : State) (core : Nat) (e : Eng) (cls j : Nat) : List Ret → Nat → Res (List Ret × State)
  | [], _ => .ok ([], s)
  | r :: l, i => do
    let (r, s) ← (if j ≤ i ∧ r.eng = e ∧ r.cls = cls then s.rereads core r r.src else .ok (r, s))
    let (l, s) ← s.rereadAll core e cls j l (i + 1)
    pure (r :: l, s)

/-- A load whose value is not yet fixed performs later than it was first read: element j of a VGATH, which has no order among
its elements (R183), or a tile load from its element j on; and after it every later load of its engine and class (R229). An
access that would fault or wait leaves the values as they are. -/
def State.refetch (s : State) (core i j : Nat) : State :=
  match (s.strand core).rets[i]? with
  | none => s
  | some r =>
    let one := if r.eng = .m then r.src.drop j else (r.src.drop j).take 1
    match (do
      let (r', s) ← s.rereads core r one
      s.rereadAll core r.eng r.cls (i + 1) ((s.strand core).rets.set i r') 0) with
    | .error _ => s
    | .ok (l, s) => s.modStrand core (fun t => { t with rets := l })

/-- A load has performed, and those before it in its class: an early reader may find its value (R101, R229). -/
def State.fixLoad (s : State) (core i : Nat) : State := s.modStrand core (fun t => t.performedTo i)

end Sys2Proof.Machine
end

