-- ==== Sys2Proof/Machine/Step.lean ====
section
/-! DEFINITION. One step of the device: the next agent of the agenda, or a free choice of one, makes its move. -/

namespace Sys2Proof.Machine

/-- What a turn does (assumption 1). A word turns up only through its sequencer; an event turn that names a word
does nothing. -/
def turn (t : Turn) (s : State) : Host.Outcome State Fault Refusal :=
  match t with
  | .engine k e => engineTurn exec s k e
  | .later k e => engineTurn execLater s k e
  | .vamoStep k => .next (s.vamoStep k)
  | .refetch k i j => .next (s.refetch k i j)
  | .fixLoad k i => .next (s.fixLoad k i)
  | .heldEffect => .next s.heldStep
  | .completeStep unit => s.completeStep unit
  | .contain page ctx table => .next (s.contain page ctx table)
  | .event i => match i.engine with
    | none => exec i s
    | some _ => .next s
  | .barWrite fn off n v => .next (s.barWrite fn off n v)
  | .barRead fn off n => .next (s.barRead fn off n)
  | .tablePool st base size dir => .next (s.setPool st base size dir)
  | .barWindow fn base size => .next (s.setWindow fn base size)
  | .grant fn lo hi => .next (s.addGrant fn lo hi)
  | .fetchAhead unit i va n => .next (s.fetchAhead unit i va n)
  | .debugRead k x => .next (s.debugRead k x)
  | .codecSkip stream n => .next (s.codecSkip stream n)
  | .undervolt unit => .next (s.undervolt unit)
  | .ideRequire fn on => .next (s.requireIde fn on)
  | .ideTraffic plain => .next (s.arriveIn plain)
  | .assignStream i fn vec => .next (s.assignStream i fn vec)
  | .assignBuf ctx handle fn => .next (s.assignBuf ctx handle fn)
  | .sense out lvl => .next (s.holdOutput out lvl)
  | .tick n => .next (s.advance n)
  | .copyStart core q => .next (s.copyStart core q)
  | .copyGather core q i => copyGather core q i s
  | .copyWrite core q i j n => copyWrite core q i j n s
  | .mailbox fn => .next (s.mailboxCopy fn)
  | .upset u => .next { s with upsets := s.upsets ++ [u] }
  | .mismatch k => .next (s.modCore k (fun c => { c with trestleBad := true }))

/-- The strands that wait on an object have read what a step left there (R195, R198). -/
def watched : Host.Outcome State Fault Refusal → Host.Outcome State Fault Refusal
  | .next s => .next s.watch
  | o => o

/-- One step. -/
def step (s : State) : Host.Outcome State Fault Refusal :=
  watched (match s.agenda with
    | [] => turn (Config.freeTurn s.free) { s with free := s.free + 1 }
    | t :: l => turn t { s with agenda := l, free := s.free + 1 })

/-- The engine whose tag a word carries. -/
def wordEngine (w : Nat) : Eng :=
  match tagOf w with
  | 0 => .s
  | 1 => .v
  | 2 => .m
  | _ => .c

/-- Handle of the image that withFetchWord makes resident. -/
def fetchHandle : Nat := 1

/-- The image withFetchWord places: the word and two NOPs of its engine, for the delay slots of a transfer. -/
def fetchImage (w : Nat) : Image :=
  { handle := fetchHandle, ctxs := [0], text := [w, tagOf w * 2 ^ 30, tagOf w * 2 ^ 30], scratch := 4096,
    entry := some 0 }

/-- The strand withFetchWord runs on core 0: the one that is there, or a new one of gang 1; its sequencers stand at
the start of the text. -/
def fetchStrand (t : Strand) : Strand :=
  { t with live := true, starting := false, image := fetchHandle, es := {}, ev := {}, em := {}, ec := {},
           halted := false, stopped := false, commit := .run, poll := none,
           gang := if t.live then t.gang else 1
           allot := if t.live then t.allot else 4096 }

/-- The gang of that strand. -/
def fetchGang (s : State) : List Gang :=
  if s.sched.gangs.any (fun g => g.id == (fetchStrand (s.core 0).ord).gang) then s.sched.gangs
  else { id := (fetchStrand (s.core 0).ord).gang, task := {}, members := [{ core := 0 }], level := 4,
         startedAt := s.now } :: s.sched.gangs

/-- The state in which the next step runs a word of the table as core 0's next word (assumption 7). -/
def State.withFetchWord (s : State) (_nbits w : Nat) : State :=
  let s := s.modSched (fun d => { d with gangs := fetchGang s, nextGang := max d.nextGang 2 })
  let s := s.modCore 0 (fun c => { c with
    inPar := false
    trestleBad := false
    imem := fetchImage w :: c.imem.filter (fun i => i.handle != fetchHandle)
    ord := fetchStrand c.ord })
  { s with agenda := .engine 0 (wordEngine w) :: s.agenda, upsets := [] }

end Sys2Proof.Machine
end

