-- ==== Sys2Proof/Safety.lean ====
section
/-! DEFINITION. What counts as a safe run, and the words that claims about states are made of: the invariants, the reading
of one byte, and what a step leaves alone. -/

namespace Sys2Proof.Machine

/-! ### Invariants -/

/-- Every memory of a Girder is in canonical form. -/
def Girder.memWf (g : Girder) : Bool :=
  g.banks.all Memory.wf && g.sbs.all Memory.wf && g.sbScale.all Memory.wf

/-- The lines of a cache: each begins at a multiple of 128, and no address has two (R222). -/
def linesWf (ls : List Line) : Bool := ls.all (fun l => l.key % 128 == 0) && (ls.map (·.key)).Nodup

/-- Every memory and every cache of the device is in canonical form. -/
def State.memWf (s : State) : Bool :=
  Memory.wf s.home && Memory.wf s.hbm && Memory.wf s.host.mem && s.cores.all (fun c => Memory.wf c.spad && linesWf c.l1)
    && s.clusters.all (fun c => c.gir.memWf && linesWf c.slice) && s.dies.all (fun d => Memory.wf d.wst)

/-- The register file has the registers of Table 5.1, and the predicate stack its bottom. -/
def Regs.shape (r : Regs) : Bool :=
  r.s.length == 32 && r.b.length == 8 && r.v.length == 32 && r.t.length == 8 && r.tt.length == 8 && r.km.length == 4
    && r.kc.length == 4 && r.bd.length == 16 && r.w.length == 8 && !r.pred.isEmpty

/-- A strand has its registers and its queues. -/
def Strand.shape (t : Strand) : Bool :=
  t.regs.shape && t.qs.q.length == 6 && t.qs.oq.length == 4 && t.qs.port.length == 4 && t.qs.src.length == 6
    && t.qs.snk.length == 6 && t.tokBy.length == 8 && t.evBy.length == 32

/-- The device has the units of R15, and each core its registers. -/
def State.shape (s : State) : Bool :=
  s.cores.length == 128 && s.clusters.length == 32 && s.doms.length == 8 && s.dies.length == 4
    && s.sched.ctxs.length == 1024 && s.cores.all (fun c => c.ord.shape && c.par.shape)

/-- The acting core exists and its strand has its registers and queues. -/
def State.present (s : State) : Bool := decide (s.cur < s.cores.length) && s.st.shape

/-- A latched pair of halt outputs is asserted (R396). -/
def State.latchHolds (s : State) : Bool := !s.err.latch || (s.err.ha && s.err.hb)

/-! ### Reading one byte -/

/-- The byte that a place of the device holds: a scratchpad, a tile of a Caisson partition, a weight store, device memory
at its home, or host memory. An aperture has no bytes of its own (R244). -/
def State.byteAt (s : State) : Target → Byte
  | .spad c o => mget (s.core c).spad o
  | .tile c o =>
    match slotAt (s.cluster (clusterOf c)).parts c (o / 4096) with
    | some x => x.get (o - 4096 * x.unit)
    | none => 0#8
  | .wst d o => mget (s.die d).wst o
  | .mem a => mget s.home a
  | .bus a => mget s.host.mem a
  | .ap _ _ _ => 0#8

/-- The byte of device memory that a plain load of core k finds (R222): in its L1, in its cluster's slice, or at the home. -/
def State.seen (s : State) (k a : Nat) : Byte :=
  let own (l : Line) : Bool := l.valid.getLsbD (a % 128)
  match (lineFind (s.core k).l1 (lineKey a)).filter own with
  | some l => lineByte l.data (a % 128)
  | none =>
    match (lineFind (s.cluster (clusterOf k)).slice (lineKey a)).filter own with
    | some l => lineByte l.data (a % 128)
    | none => mget s.home a

/-- No byte of the device's memories, as held or as a load finds it, differs. -/
def sameBytes (s t : State) : Prop :=
  (∀ p, t.byteAt p = s.byteAt p) ∧ (∀ k a, t.seen k a = s.seen k a) ∧ t.hbm = s.hbm

/-- Nothing differs but the strand of the acting core. -/
def onlyStrand (s t : State) : Prop := ∃ x : Strand, t = s.modSt (fun _ => x)

/-! ### Numbers -/

/-- The rational number that a finite value is. -/
def FVal.rat : FVal → ℚ
  | .fin n m e => (if n then -1 else 1) * (m : ℚ) * (2 : ℚ) ^ e
  | _ => 0

/-- A finite value of a sign. -/
def FVal.isFin (n : Bool) : FVal → Prop
  | .fin x _ _ => x = n
  | _ => False

/-- The number types of the device (Tables 2.1, 2.2, R29). -/
def NTy.known : NTy → Prop
  | .int w _ => w = 8 ∨ w = 16 ∨ w = 32
  | .n4 k => k < 4
  | _ => True

/-- A code of a type that has a finite value. -/
def NTy.has (t : NTy) (c : Nat) : Prop := c < 2 ^ t.width ∧ ∃ n, (t.value c).isFin n

/-- The rational number that a code of a type stands for. -/
def NTy.rat (t : NTy) (c : Nat) : ℚ := (t.value c).rat

/-- A type clamps what lies beyond its greatest and least finite values (R35 rules 3, 4). -/
def NTy.clamps (t : NTy) (esat : Bool) : Prop := t.isFloat = false ∨ t = .e4m3 ∨ t = .e5m2 ∧ esat = true

/-- A code and flags are an exact rational number, with a sign that a zero keeps, rounded into a type in a mode (R34 to R37): the
nearest value with ties to the even code, or the next value toward zero, downwards or upwards; beyond the range the clamped value
with SAT, or by IEEE 754 with OVF; INX where the result differs, and UNF below the smallest normal. -/
def roundsTo (t : NTy) (neg : Bool) (y : ℚ) (m : Rnd) (esat : Bool) (r : Nat × Nat) : Prop :=
  let out := (∀ c, t.has c → t.rat c < y) ∨ ∀ c, t.has c → y < t.rat c
  r.1 < 2 ^ t.width ∧ r.2 < 64 ∧ r.2.testBit 0 = false ∧ r.2.testBit 4 = false
  ∧ (r.2.testBit 5 = true ↔ t.clamps esat ∧ out)
  ∧ (r.2.testBit 1 = true → ¬ t.clamps esat ∧ out)
  ∧ (¬ t.has r.1 → ¬ t.clamps esat ∧ t.value r.1 = .inf neg ∧ r.2 = fOVF + fINX)
  ∧ (m = .rne → ¬ t.clamps esat →
      (¬ t.has r.1 ↔ t.rat t.maxMag + (t.rat t.maxMag - t.rat (t.maxMag - 1)) / 2 ≤ |y|))
  ∧ (t.has r.1 →
      (m = .rne → (∀ c, t.has c → |t.rat r.1 - y| ≤ |t.rat c - y|)
        ∧ ((∃ c, t.has c ∧ t.rat c ≠ t.rat r.1 ∧ |t.rat c - y| = |t.rat r.1 - y|) → r.1 % 2 = 0))
      ∧ (m = .rtz → |t.rat r.1| ≤ |y| ∧ 0 ≤ t.rat r.1 * y
        ∧ ∀ c, t.has c → 0 ≤ t.rat c * y → |t.rat c| ≤ |y| → |t.rat c| ≤ |t.rat r.1|)
      ∧ (m = .rdn → (∃ c, t.has c ∧ t.rat c ≤ y) → t.rat r.1 ≤ y ∧ ∀ c, t.has c → t.rat c ≤ y → t.rat c ≤ t.rat r.1)
      ∧ (m = .rup → (∃ c, t.has c ∧ y ≤ t.rat c) → y ≤ t.rat r.1 ∧ ∀ c, t.has c → y ≤ t.rat c → t.rat r.1 ≤ t.rat c)
      ∧ (t.rat r.1 = 0 → r.1 = if t.isFloat = true ∧ neg = true then 2 ^ (t.width - 1) else 0)
      ∧ (r.2.testBit 3 = true ↔ t.rat r.1 ≠ y)
      ∧ (r.2.testBit 2 = true ↔ t.isFloat = true ∧ t.rat r.1 ≠ 0 ∧ t.rat r.1 ≠ y
        ∧ |y| < (2 : ℚ) ^ (1 - (t.layout.2.2 : Int))))

/-- The sign of a sum: its own, or of an exact zero that of the terms (R154). -/
def sumSign (y : ℚ) (z : Bool) : Bool := if y = 0 then z else decide (y < 0)

/-- The unit in the last place of an fp32 code (R170, R172). -/
def ulp32 (c : Nat) : ℚ := (2 : ℚ) ^ ((max 1 (c % 2 ^ 31 / 2 ^ 23) : Nat) - 150 : Int)

/-- A result that is an infinity of a sign, without a flag. -/
def isInf (t : NTy) (n : Bool) (r : Nat × Nat) : Prop := t.value r.1 = .inf n ∧ r.2 = 0

/-- A code orders below another, -0 below +0 (R155, R173). -/
def below (t : NTy) (a b : Nat) : Prop :=
  (t.value a).lt (t.value b) = true
  ∨ t.isFloat = true ∧ (t.value a).isZero = true ∧ (t.value b).isZero = true ∧ a.testBit (t.width - 1) = true
    ∧ b.testBit (t.width - 1) = false

/-! ### What a word has done -/

/-- A word of an engine has issued: its sequencer stands after it (R80, R88), and the strand was not stalled. -/
def wordDone (e : Eng) (s t : State) : Prop :=
  t.st.eng e = (s.st.eng e).step s.now ∧ t.st.stall = 0 ∧ t.st.issued = true

/-- The word answers a next state in which it has issued and s[d] holds v; a write of s0 leaves 0 (R99). -/
def writesS (i : Instr) (e : Eng) (s : State) (d : Nat) (v : Dbl) : Prop :=
  ∃ t, exec i s = .next t ∧ wordDone e s t ∧ t.getS d = if d = 0 then 0#64 else v

/-- The word answers a next state in which it has issued and of which P holds. -/
def issues (i : Instr) (e : Eng) (s : State) (P : State → Prop) : Prop :=
  ∃ t, exec i s = .next t ∧ wordDone e s t ∧ P t

/-- Nothing holds back a word that COMMIT ends: the strand has not committed (R370), no bit error waits (R387), no store of S
and no VAMO has still to perform (R182, R229), and no wait has found a token clear in this cycle (R111). -/
def State.able (s : State) : Prop :=
  s.present = true ∧ s.st.commit ≠ .done ∧ s.upsets = [] ∧ s.st.storing .s none = false ∧ s.st.vamo = none
    ∧ s.st.cyc.waited = 0#8

/-- An aligned object of n bytes at offset o of the strand's own scratchpad window (R185, R188). -/
def State.ownAt (s : State) (va n o : Nat) : Prop :=
  va = spadBase + o ∧ o % n = 0 ∧ o + n ≤ s.st.allot ∧ o + n ≤ s.carveBase s.cur

/-- n bytes from an offset of a core's own scratchpad window that its strand may reach (R185, R186). -/
def State.ownRange (s : State) (core o n : Nat) : Prop :=
  o + n ≤ (s.strand core).allot ∧ o + n ≤ s.carveBase core

/-- The oldest unstarted command of a copy queue may start: what stands before it has moved its payload (R247). -/
def State.copyNext (s : State) (core q : Nat) (l : List CCmd) (c : CCmd) (l' : List CCmd) : Prop :=
  (s.core core).cq q = l ++ c :: l' ∧ (∀ x ∈ l, x.started = true ∧ x.done = true)
    ∧ (∀ x ∈ l', x.started = false) ∧ c.started = false ∧ s.copyMay core ((s.core core).cq q) c = true

/-- The first command of a Girder that has not run may start: nothing but commands that have run stands before it, and none of
its events is missing (R278). -/
def State.girNext (s : State) (n : Nat) (l : List GCmd) (c : GCmd) (l' : List GEntry) : Prop :=
  (s.girder n).queue = l.map .cmd ++ .cmd c :: l' ∧ (∀ x ∈ l, x.done = true) ∧ c.done = false ∧ c.started = false
    ∧ c.migrated = false ∧ s.gReady c = true ∧ (s.girder n).fenced = false ∧ n < 32

/-- Code i of a run of packed elements at an offset of a memory, h twice the bytes of an element (R31). -/
def packedAt (m : Memory) (h o i : Nat) : Nat :=
  if h = 1 then fld (mget m (o + i / 2)).toNat (4 * (i % 2)) 4 else mnat m (o + i * (h / 2)) (h / 2)

/-- The n-byte number at an offset of the acting core's scratchpad. -/
def State.own (s : State) (o n : Nat) : Nat := mnat (s.core s.cur).spad o n

/-- The homes hold what they held, but for dirty bytes of cached lines of core k and its cluster that have been written back
(R222). -/
def homeKept (s t : State) (k : Nat) : Prop :=
  ∀ a, mget t.home a = mget s.home a ∨ ∃ l, (l ∈ (s.core k).l1 ∨ l ∈ (s.cluster (clusterOf k)).slice)
    ∧ l.key ≤ a ∧ a < l.key + 128 ∧ l.dirty.getLsbD (a - l.key) = true ∧ mget t.home a = lineByte l.data (a - l.key)

/-- No byte at a place of the device differs but n bytes from offset o of the acting core's scratchpad, and at the homes
what the caches have written back. -/
def otherBytes (s t : State) (o n : Nat) : Prop :=
  (∀ p, (∀ x, p ≠ .mem x) → (∀ i, i < n → p ≠ .spad s.cur (o + i)) → t.byteAt p = s.byteAt p) ∧ homeKept s t s.cur

/-- The line of a key in a cache, or one that holds nothing. -/
def lineOr (ls : List Line) (key : Nat) : Line := (lineFind ls key).getD ⟨key, 0, 0#128, 0#128, 0#1024⟩

/-- The byte of device memory that a fill of a slice leaves there (R222): the slice's own, where its line is whole or the byte is
dirty, or the home's. -/
def State.sliceByte (s : State) (n a : Nat) : Byte :=
  let l := lineOr (s.cluster n).slice (lineKey a)
  if l.valid = BitVec.allOnes 128 ∨ l.dirty.getLsbD (a % 128) = true then lineByte l.data (a % 128) else mget s.home a

/-- Byte i of n that a plain load of core k finds at a place (R129, R222): of device memory the L1's, where it holds all of them
or the byte is dirty, or what its slice has. -/
def State.loadByte (s : State) (k : Nat) (p : Target) (n i : Nat) : Byte :=
  match p with
  | .mem x =>
    let l := lineOr (s.core k).l1 (lineKey x)
    if (∀ j, j < n → l.valid.getLsbD (x % 128 + j) = true) ∨ l.dirty.getLsbD (x % 128 + i) = true then
      lineByte l.data (x % 128 + i)
    else s.sliceByte (clusterOf k) (x + i)
  | p => s.byteAt (p.plus i)

/-- The byte that an atomic of core k finds at a place (R131, R223): of device memory a dirty byte of the core's L1 or of its
slice, what else the slice's line holds where a narrow scope acts there and finds it whole, or the home's. -/
def State.atomByte (s : State) (k : Nat) (sc : Scope) (p : Target) (i : Nat) : Byte :=
  match p with
  | .mem x =>
    let a := x + i
    let l := lineOr (s.core k).l1 (lineKey x)
    let m := lineOr (s.cluster (clusterOf k)).slice (lineKey x)
    if l.dirty.getLsbD (a % 128) = true then lineByte l.data (a % 128)
    else if m.dirty.getLsbD (a % 128) = true ∨ (sc = .core ∨ sc = .cluster) ∧ m.valid ||| l.dirty = BitVec.allOnes 128 then
      lineByte m.data (a % 128)
    else mget s.home a
  | p => s.byteAt (p.plus i)

/-- A place whose bytes an access of n can have at once: inside a slot, not in a bank group that refreshes, and in one line of device
memory (R207, R223, R226). -/
def State.placeOk (s : State) (n : Nat) : Target → Prop
  | .tile c o => (slotAt (s.cluster (clusterOf c)).parts c (o / 4096)).isSome = true
  | .wst _ o => s.refreshing o = false
  | .mem x => x % n = 0 ∧ x < apKeyBase
  | .ap _ _ _ => False
  | _ => True

/-- No dirty line of core k or of its cluster's slice belongs to a page that is withdrawn: a release can write back every one
(R231, R381). -/
def State.drains (s : State) (k : Nat) : Prop :=
  ∀ l, l ∈ (s.core k).l1 ∨ l ∈ (s.cluster (clusterOf k)).slice → l.dirty ≠ 0#128 → s.poisonedPa l.key = false

/-- n bytes b have been stored at a place by the acting core, and no byte elsewhere has changed but at homes what the caches have
written back (R127, R222). -/
def storedAt (s t : State) (n : Nat) (p : Target) (b : Nat → Byte) : Prop :=
  (∀ q, (∀ x, q ≠ .mem x) → (∀ i, i < n → q ≠ p.plus i) → t.byteAt q = s.byteAt q) ∧ homeKept s t s.cur
  ∧ ∀ i, i < n → (∀ c o, p = .spad c o → t.byteAt (.spad c (o + i)) = b i)
    ∧ (∀ x, p = .bus x → t.byteAt (.bus (x + i)) = b i)
    ∧ (∀ c o, p = .tile c o → (slotAt (s.cluster (clusterOf c)).parts c (o / 4096)).isSome = true →
        t.byteAt (.tile c (o + i)) = b i)
    ∧ (∀ x, p = .mem x → x % n = 0 → t.seen s.cur (x + i) = b i)

/-- A line of a key finds room in the L1 of core k, so that no other line leaves it (R222, Table 11.1). -/
def State.l1Room (s : State) (k key : Nat) : Prop :=
  (lineFind (s.core k).l1 key).isSome = true ∨ (roomFor 8 512 (s.pick 4) (s.core k).l1).1 = none

/-- No scalar register differs but s[d]. -/
def otherRegs (s t : State) (d : Nat) : Prop := ∀ n, n ≠ d → t.getS n = s.getS n

/-- s[d] holds v, unless it is s0, which reads as 0 (R99). -/
def holdsS (t : State) (d : Nat) (v : Dbl) : Prop := t.getS d = if d = 0 then 0#64 else v

/-- A value is on its way to s[d], under token w0 (R58, R102). -/
def returning (s t : State) (d v : Nat) : Prop :=
  (∃ r : Ret, t.st.rets = s.st.rets ++ [r] ∧ r.dst = (if d = 0 then .none else .s d) ∧ r.val = v ∧ r.mask = ones 64
      ∧ r.tok = 0 ∧ r.eng = .s)
    ∧ t.st.tokCount 0 = s.st.tokCount 0 + 1 ∧ t.st.regs.s = s.st.regs.s

/-- No clean byte is left valid in a cache (R232). -/
def onlyDirty (ls : List Line) : Prop := ∀ l ∈ ls, l.cls < 16 → l.valid = l.dirty

/-- No byte is left dirty in a cache (R231). -/
def allClean (ls : List Line) : Prop := ∀ l ∈ ls, l.dirty = 0#128

/-- Address and size of the access of an S word to memory (R127). -/
def accessOf (s : State) : Instr → Option (Nat × Nat)
  | .ld _ a _ sz off | .lds _ a _ sz off | .st _ a _ sz off => some (s.effAddr a 8 off (sizeBytes sz), sizeBytes sz)
  | .lda _ a _ _ sz off | .stl _ a _ _ sz off => some (s.effAddr a 5 off (wsizeBytes sz), wsizeBytes sz)
  | .amo _ _ a _ _ sz | .cas _ a _ _ sz => some ((s.rdS a).toNat, wsizeBytes sz)
  | _ => none

/-- Address and alignment of the object of a WAITA, BAR or FUT word (R191). -/
def syncOf (s : State) : Instr → Option (Nat × Nat)
  | .waita _ sz _ a _ _ => some ((s.rdS a).toNat, wsizeBytes sz)
  | .barArrive _ a _ | .barExpect a _ _ | .barWait a _ _ | .barArriveExpect _ a _ _ | .fput a _ _ | .fget _ a _
  | .fpeek _ a _ => some ((s.rdS a).toNat, 16)
  | _ => none

/-- A fault of a word of an engine at its own program counter. -/
def faultAt (s : State) (e : Eng) (f : FInfo) : FInfo := { f with engine := engNo e, text := (s.st.eng e).pc }

/-- Lane j of width w of the group of registers from v[n] up, as landed (R105). -/
def groupLane (t : State) (n w j : Nat) : Nat :=
  lane w (j % (1024 / w)) (lget t.st.regs.v (n + j / (1024 / w)) 0#1024).toNat

/-- No vector register differs but g of them from v[n] up. -/
def otherV (s t : State) (n g : Nat) : Prop :=
  ∀ m, m < n ∨ n + g ≤ m → lget t.st.regs.v m 0#1024 = lget s.st.regs.v m 0#1024

/-- SEQ_FLAGS holds what it held and the flags of the lanes that take part (R43). -/
def flagsOr (s t : State) (cnt : Nat) (on : Nat → Bool) (f : Nat → Nat) : Prop :=
  ∀ b, b < 6 → (t.st.flags.getLsbD b = true ↔
    s.st.flags.getLsbD b = true ∨ ∃ j, j < cnt ∧ on j = true ∧ (f j).testBit b = true)

/-- What a word leaves that has put its result into a write port as s3 has it: the stores, queues and registers of s3 (R145). -/
def portDone (s3 t : State) : Prop :=
  t.st.psts = s3.st.psts ∧ t.st.qs = s3.st.qs ∧ t.st.regs = s3.st.regs ∧ sameBytes s3 t

/-- A word whose lane j comes from lane j of one operand: destination, operand, the lane widths of the operand and the
result, the lanes, and what it computes in one lane (R156, R159, R164, R165, R169, R170, R172). -/
def laneOp1 : Instr → Option (VDst × VSrc × Nat × Nat × Nat × (Nat → Nat × Nat))
  | .vun f d a ty => some (d, a, ty.bits, ty.bits, 1024 / ty.bits, fun x => (unLane f (ty.nty false) x, 0))
  | .vaddi d a imm => some (d, a, 32, 32, 32, fun x => (wrapInt 32 ((x : Int) + sextInt 12 imm), 0))
  | .vnarr d a ty sg u =>
    some (d, a, 32, ty.bits, 1024 / ty.bits, narrLane (ty.nty (u == 1)) (ty.wide (u == 1)) (sg == 1))
  | .vcvt d a m sty ty sg u =>
    some (d, a, sty.bits, ty.bits, 1024 / min sty.bits ty.bits, cvtLane (sty.nty (u == 1)) (ty.nty (u == 1)) m (sg == 1))
  | .vrint d a ty m => some (d, a, ty.bits, ty.bits, 1024 / ty.bits, fun x => (rintLane (ty.nty false) m x, 0))
  | .vexp2f d a => some (d, a, 32, 32, 32, exp2Lane)
  | .vrcp d a ty => some (d, a, ty.bits, ty.bits, 1024 / ty.bits, rcpLane (ty.nty false))
  | .vrsq d a ty => some (d, a, ty.bits, ty.bits, 1024 / ty.bits, rsqLane (ty.nty false))
  | _ => none

/-- The same for two operands (R155, R157, R158, R162, R163, R171). -/
def laneOp2 : Instr → Option (VDst × VSrc × VSrc × Nat × Nat × Nat × Nat × (Nat → Nat → Nat × Nat))
  | .vadd d a b ty sg u => some (d, a, b, ty.bits, ty.bits, ty.bits, 1024 / ty.bits,
      fun x y => arithLane .add (ty.nty (u == 1)) (sg == 1) x y 0)
  | .vsub d a b ty sg u => some (d, a, b, ty.bits, ty.bits, ty.bits, 1024 / ty.bits,
      fun x y => arithLane .sub (ty.nty (u == 1)) (sg == 1) x y 0)
  | .vmul d a b ty sg u => some (d, a, b, ty.bits, ty.bits, ty.bits, 1024 / ty.bits,
      fun x y => arithLane .mul (ty.nty (u == 1)) (sg == 1) x y 0)
  | .vmin d a b ty u => some (d, a, b, ty.bits, ty.bits, ty.bits, 1024 / ty.bits,
      fun x y => (minMaxLane (ty.nty (u == 1)) false x y, 0))
  | .vmax d a b ty u => some (d, a, b, ty.bits, ty.bits, ty.bits, 1024 / ty.bits,
      fun x y => (minMaxLane (ty.nty (u == 1)) true x y, 0))
  | .vlog f d a b ty => some (d, a, b, ty.bits, ty.bits, ty.bits, 1024 / ty.bits, fun x y => (logLane f ty.bits x y, 0))
  | .vsh f d a b ty => some (d, a, b, ty.bits, ty.bits, ty.bits, 1024 / ty.bits, fun x y => (shLane f ty.bits x y, 0))
  | .vmulw d a b ty u => some (d, a, b, ty.bits, ty.bits, 32, 1024 / ty.bits,
      mulwLane (ty.nty (u == 1)) (ty.wide (u == 1)))
  | .vaddw d a b ty sg u => some (d, a, b, 32, ty.bits, 32, 1024 / ty.bits,
      addwLane (ty.nty (u == 1)) (ty.wide (u == 1)) (sg == 1))
  | .vscaleb d a b => some (d, a, b, 32, 32, 32, 32, scalebLane)
  | _ => none

/-- A vector source that is zero or an allocated, aligned group of g registers (R60, R105). -/
def State.regSrc (s : State) (g : Nat) : VSrc → Prop
  | .zero => True
  | .reg n => n + g ≤ s.st.vregs ∧ n % g = 0
  | _ => False

/-- The value of such a source. -/
def State.regVal (s : State) (g : Nat) : VSrc → Nat
  | .reg n => s.rdGroup n g
  | _ => 0

/-- The words of V that read vector operands and write registers, predicates, tiles or queues of the strand. -/
def laneWord : Instr → Bool
  | .vadd _ _ _ _ _ _ | .vsub _ _ _ _ _ _ | .vmul _ _ _ _ _ _ | .vfma _ _ _ _ _ _ | .vfnma _ _ _ _ _ _
  | .vmin _ _ _ _ _ | .vmax _ _ _ _ _ | .vun _ _ _ _ | .vlog _ _ _ _ _ | .vsh _ _ _ _ _ | .vaddi _ _ _
  | .vmulw _ _ _ _ _ | .vaddw _ _ _ _ _ _ | .vnarr _ _ _ _ _ | .vcvt _ _ _ _ _ _ _ | .vrint _ _ _ _ | .vexp2f _ _
  | .vscaleb _ _ _ | .vrcp _ _ _ | .vrsq _ _ _ | .vcmp _ _ _ _ _ | .vsel _ _ _ _ | .vquant _ _ _ _ _ | .vdeq _ _ _ _
  | .vred _ _ _ _ | .vtopk _ _ _ _ | .vperm _ _ _ _ | .vshuf _ _ _ _ | .vbcast _ _ _ _ | .viota _ _ | .vslide _ _ _ _
  | .vtr _ _ _ _ _ _ | .vtw _ _ _ _ _ _ | .vqpush _ _ => true
  | _ => false

/-- Registers of the destination group of such a word (R105); tile gives the element bits of a tile register. -/
def dstGroup (tile : Nat → Nat) : Instr → Nat
  | .vmulw _ _ _ ty _ | .vaddw _ _ _ ty _ _ => 32 / ty.bits
  | .vcvt _ _ _ sty ty _ _ => ty.bits / min sty.bits ty.bits
  | .vdeq _ _ _ _ => 4
  | .vtr _ t _ _ cv _ => max 1 ((cv.map (·.bits)).getD (tile t) / tile t)
  | _ => 1

/-- What lets such a word issue at once: its sources are registers or zero and its destination registers, all allocated and
aligned, the tile it names has a type, and there is room for what it pushes (R60, R94, R105, R137). -/
def State.laneReady (s : State) (i : Instr) : Prop :=
  let tile (t : Nat) : Nat := codeBits (s.tileTy t)
  (∀ p ∈ vectorReads tile i, s.regSrc p.2 p.1)
    ∧ (∀ d, vecDst i = some d → ∃ n, d = .reg n ∧ n + dstGroup tile i ≤ s.st.vregs ∧ n % dstGroup tile i = 0)
    ∧ (match i with
      | .vcmp _ _ _ _ _ => s.st.regs.pred.length < 16
      | .vqpush q _ => (s.queue (if q = 0 then 3 else 5)).length < 16
      | .vtr _ t _ _ _ _ => (∃ ty : TileTy, s.tileTy t = ty.code) ∧ ∀ h ∈ s.st.hz, h.unit = .t t → h.was = none
      | .vtw _ t _ _ _ _ => ∃ ty : TileTy, s.tileTy t = ty.code
      | _ => True)

/-- The elements of a VAMO on one scratchpad in ascending lane order: the old values and the bytes after (R182). -/
def amoSeq (f : VAmoFn) (x : Nat) : Memory → List (Nat × Nat) → List (Nat × Nat) × Memory
  | m, [] => ([], m)
  | m, (i, o) :: l =>
    let old := mnat m o 4
    let r := amoSeq f x (mputn m o 4 (vamoFn f old (lane 32 i x))) l
    ((i, old) :: r.1, r.2)

/-- Source, none for zeros, and destination of pixel i of entry number e of a list command; none where nothing moves
(R261). -/
def listMove (k e x i : Nat) : Option (Option Nat × Nat) :=
  let n := entrySide k
  let u := i % n
  let v := i / n
  let px : Int := 16 * (entTile x % lTC k : Nat) + u
  let py : Int := 16 * (entTile x / lTC k : Nat) + v
  match kKind k with
  | 3 =>
    let qx := px - lHalo k
    let qy := py - lHalo k
    some (if inMap k qx qy then some (pixelAt (kSrc k) (kSS k 1) k qx qy) else none, blockAt (kDst k) (kDS k 1) (kDS k 2) k e u v)
  | 4 =>
    if inMap k px py then some (some (blockAt (kSrc k) (kSS k 1) (kSS k 2) k e u v), pixelAt (kDst k) (kDS k 1) k px py) else none
  | _ =>
    if inMap k px py then
      some (some (pixelAt (kSrc k) (kSS k 1) k (px + entDX x) (py + entDY x)), pixelAt (kDst k) (kDS k 1) k px py)
    else none

/-- The pixels that a list command moves, by its entries. -/
def listMoves (k : Nat) (ent : Nat → Nat) : List (Option Nat × Nat) :=
  (List.range (lE k)).flatMap (fun e =>
    if entryUsed k (ent e) then (List.range (entrySide k * entrySide k)).filterMap (listMove k e (ent e)) else [])

/-- n bits of a stream from bit p of the bytes at o, the first the highest (R258). -/
def streamBits (m : Memory) (o p : Nat) : Nat → Nat
  | 0 => 0
  | n + 1 => 2 * streamBits m o p n + fld (mget m (o + (p + n) / 8)).toNat ((p + n) % 8) 1

/-- The stream at o holds, from bit p on, code words of a table for some symbols (R258). -/
def streamIs (m : Memory) (o : Nat) (ls : List Nat) : List Nat → Nat → Prop
  | [], _ => True
  | x :: xs, p => ∃ n, n ≤ 15 ∧ codeSym ls n (streamBits m o p n) = some x ∧ 1 ≤ n
      ∧ (∀ j, 1 ≤ j → j < n → codeSym ls j (streamBits m o p j) = none) ∧ streamIs m o ls xs (p + n)

/-- The words that may stand in the post-commit region (R370). -/
def postCommitOk : Instr → Bool
  | .nop | .alu _ _ _ _ _ | .muldiv _ _ _ _ _ | .addi _ _ _ | .andi _ _ _ | .ori _ _ _ | .xori _ _ _ | .shli _ _ _
  | .shri _ _ _ | .srai _ _ _ | .lui _ _ | .luh _ _ | .lea _ _ _ _ _ | .ctos _ _ | .stoc _ _ | .cmp _ _ _ _ _
  | .cmpi _ _ _ _ | .ptg _ _ | .xfer _ _ _ _ _ _ | .evsig _ | .evclr _ | .wait _ | .sysrd _ _ | .halt
  | .vnop | .vbq _ _ | .vwait _ | .mnop | .mbq _ _ | .mwait _ | .mfree | .cnop | .cbq _ _ | .cwait _ => true
  | _ => false

/-- Arrivals, expected arrivals, phase and pending bytes of a barrier (Table 9.5). -/
def barFields (x : Nat) : Nat × Nat × Nat × Int := (fld x 0 16, fld x 16 16, fld x 32 16, barPend x)

/-- A barrier whose arrivals are complete and that has nothing pending moves to its next phase (R198). -/
def settled (c n p : Nat) (q : Int) : Nat × Nat × Nat × Int :=
  if c = n ∧ q = 0 then (0, n, (p + 1) % 65536, q) else (c, n, p, q)

/-- The scalar register that a word of the scalar datapath names as its destination; none for a word that is not one of
them or writes none. -/
def scalarDest : Instr → Option Nat
  | .alu _ d _ _ _ | .muldiv _ d _ _ _ | .addi d _ _ | .andi d _ _ | .ori d _ _ | .xori d _ _ | .shli d _ _
  | .shri d _ _ | .srai d _ _ | .lui d _ | .luh d _ | .lea d _ _ _ _ | .ctos d _ | .sysrd d _ => some d
  | _ => none

/-- The words of the scalar datapath: they read and write registers and conditions only. -/
def scalarWord (i : Instr) : Bool :=
  (scalarDest i).isSome || (match i with
    | .nop | .cmp _ _ _ _ _ | .cmpi _ _ _ _ | .stoc _ _ | .wait _ | .evsig _ | .evclr _ | .evwait _ _ => true
    | _ => false)

/-- Conditions that a word may write: a bit of the mask for each (R86, R126). -/
def condsWritten : Instr → Nat
  | .cmp _ c _ _ _ | .cmpi _ c _ _ => 2 ^ c
  | .stoc _ _ => 15
  | _ => 0

/-! ### Runs -/

/-- A step goes on. -/
def stepsOn (s : State) : Prop := ∃ t, step s = .next t

/-- A run of n steps goes on. -/
def safeRun : Nat → State → Prop
  | 0, _ => True
  | n + 1, s => ∃ t, step s = .next t ∧ safeRun n t

end Sys2Proof.Machine
end

