-- ==== Sys2Proof/Certificates/Slice0/Obligations.lean ====
section
/-! DEFINITION. The statements for the provers, in the order of the spec's chapters. -/

open Sys2Proof Sys2Proof.Machine

/-! ## Encoding and the step -/

/-- Decoding the encoding of a well-formed word gives the word back, with every operand (R50 to R70). -/
def Obligations.DecodeEncode : Prop :=
  ∀ (i : Instr) (e : Eng), i.engine = some e → i.wellFormed = true → decodeWord (encode i) = .ok i

/-- A word that decodes is the encoding of what it decodes to, which is well formed and carries the tag of its engine: no
reserved field is passed over (R50, R52). -/
def Obligations.EncodeDecode : Prop :=
  ∀ (w : Nat) (i : Instr), w < 2 ^ 32 → decodeWord w = .ok i →
    encode i = w ∧ i.wellFormed = true ∧ ∃ e, i.engine = some e ∧ engNo e = tagOf w

/-- Words written out from the spec's encodings decode to the instructions they stand for, and the four words that R52 names
are the NOPs. -/
def Obligations.DecodeSanity : Prop :=
  decodeWord 0x00000000 = .ok .nop ∧ decodeWord 0x40000000 = .ok .vnop ∧ decodeWord 0x80000000 = .ok .mnop
    ∧ decodeWord 0xC0000000 = .ok .cnop ∧ decodeWord 0x2B024200 = .ok (.pset 2 9)
    ∧ decodeWord 0x30208610 = .ok (.talloc .c16 4 2 3 .always) ∧ decodeWord 0x36000000 = .ok .commit

/-- A sequencer whose walk reaches an own word in its turn runs what the word decodes to, at the word (R52, R80), and then what
follows a word that has left its engine (State.leave), under the premises under which a word issues: the strand may act, the
slip bound and a waiting COMMIT do not hold it, no bit error or checker mismatch meets it, and a word of S that orders its
accesses finds its stores performed (R229). A word that does not decode raises ILLEGAL_ENCODING at its own text offset and
nothing of it executes (R52). A fault leaves the turn to one that R379 records instead. A command or an event of the table
happens as its meaning says when its turn comes. After each step the strands that wait on an object have read it (R195). -/
def Obligations.StepRuns : Prop :=
  (∀ (s : State) (k : Nat) (e : Eng) (l : List Turn) (pc walk : Nat) (i : Instr),
      s.agenda = .engine k e :: l → k < 128 →
      let s' := { s with agenda := l, free := s.free + 1 }
      let s0 := { s' with cur := k }
      s0.mayAct k e = true → s0.pass k e = .own pc walk →
      let s1 := s0.moveTo e pc walk (pc / 64 + 1)
      (e = .s ∨ s1.st.beyond e pc = false) → s1.imemUpset (s1.st.eng e).pc = none →
      decodeWord (lget (s1.text k) (pc / 4) 0) = .ok i → s1.regUpset i = none →
      (e ≠ .s ∨ plainS i = true ∨ s1.st.storing .s none = false) →
      ((s1.core k).trestleBad && s1.trestleChecks i) = false →
      let o := s1.leaving i e (exec i s1)
      step s = watched (if s'.yields exec k e o then .next s' else o))
  ∧ (∀ (s : State) (k : Nat) (e : Eng) (l : List Turn) (pc walk : Nat) (err : DecodeError),
      s.agenda = .engine k e :: l → k < 128 →
      let s' := { s with agenda := l, free := s.free + 1 }
      let s0 := { s' with cur := k }
      s0.mayAct k e = true → s0.pass k e = .own pc walk →
      let s1 := s0.moveTo e pc walk (pc / 64 + 1)
      (e = .s ∨ s1.st.beyond e pc = false) → s1.imemUpset (s1.st.eng e).pc = none →
      decodeWord (lget (s1.text k) (pc / 4) 0) = .error err →
      let o : Host.Outcome State Fault Refusal :=
        .next (takeFault { code := .illegalEncoding, engine := engNo e, text := (s1.st.eng e).pc } s1)
      step s = watched (if s'.yields exec k e o then .next s' else o))
  ∧ (∀ (s : State) (i : Instr) (l : List Turn), s.agenda = .event i :: l → i.engine = none →
      step s = watched (exec i { s with agenda := l, free := s.free + 1 }))

/-- Every instruction answers a next state in every state, faults of the device being next states; a step stops only at a
turn that names a core the device does not have (R15, R379). -/
def Obligations.NothingStops : Prop :=
  (∀ (i : Instr) (s : State), ∃ t, exec i s = .next t) ∧
  (∀ s : State, (∃ t, step s = .next t) ∨ ∃ k, 128 ≤ k ∧ step s = .fault (.noSuchCore k))

/-! ## The scalar datapath -/

/-- The functions of ALU (Table 6.1, R121) and of MULDIV with their borderline results (Table 6.2, R122), and the values of
their fields, of LEA's and of the shifts' that are reserved. The words that compute a scalar register issue and write it: an
SA word whose guard holds, and a division once the divider is free; ALU, MULDIV, the immediate forms (R123) and LEA (R125),
and beside those rules LUI, LUH and CTOS with what they write (of R124 and R126). -/
def Obligations.ScalarWords : Prop :=
  (∀ d a b : Dbl, let n := b.toNat % 64
      (aluFn .add d a b).toNat = (a.toNat + b.toNat) % 2 ^ 64
      ∧ (aluFn .sub d a b).toNat = (2 ^ 64 + a.toNat - b.toNat) % 2 ^ 64
      ∧ (∀ i, (aluFn .and d a b).getLsbD i = (a.getLsbD i && b.getLsbD i)
        ∧ (aluFn .or d a b).getLsbD i = (a.getLsbD i || b.getLsbD i)
        ∧ (aluFn .xor d a b).getLsbD i = (a.getLsbD i != b.getLsbD i)
        ∧ (aluFn .andn d a b).getLsbD i = (a.getLsbD i && !b.getLsbD i)
        ∧ (aluFn .sel d a b).getLsbD i = (if d.getLsbD i then a.getLsbD i else b.getLsbD i))
      ∧ (aluFn .shl d a b).toNat = a.toNat * 2 ^ n % 2 ^ 64
      ∧ (aluFn .shr d a b).toNat = a.toNat / 2 ^ n
      ∧ (aluFn .sra d a b).toInt = a.toInt / 2 ^ n
      ∧ (∀ i, i < 64 → (aluFn .rol d a b).getLsbD ((i + n) % 64) = a.getLsbD i)
      ∧ (aluFn .min d a b).toInt = min a.toInt b.toInt ∧ (aluFn .max d a b).toInt = max a.toInt b.toInt
      ∧ (aluFn .minu d a b).toNat = min a.toNat b.toNat ∧ (aluFn .maxu d a b).toNat = max a.toNat b.toNat
      ∧ (a = 0#64 → (aluFn .clz d a b).toNat = 64)
      ∧ (a ≠ 0#64 → (aluFn .clz d a b).toNat < 64 ∧ 2 ^ 63 ≤ a.toNat * 2 ^ (aluFn .clz d a b).toNat
        ∧ a.toNat * 2 ^ (aluFn .clz d a b).toNat < 2 ^ 64)
      ∧ (aluFn .popc d a b).toNat = ((List.range 64).filter a.getLsbD).length)
  ∧ (∀ a b : Dbl,
      (mulFn .mul a b).toNat = a.toNat * b.toNat % 2 ^ 64
      ∧ (mulFn .mulh a b).toInt = a.toInt * b.toInt / 2 ^ 64
      ∧ (mulFn .mulhu a b).toNat = a.toNat * b.toNat / 2 ^ 64
      ∧ (b = 0#64 → mulFn .div a b = BitVec.allOnes 64 ∧ mulFn .divu a b = BitVec.allOnes 64
        ∧ mulFn .rem a b = a ∧ mulFn .remu a b = a)
      ∧ (a = BitVec.intMin 64 → b = BitVec.allOnes 64 → mulFn .div a b = BitVec.intMin 64 ∧ mulFn .rem a b = 0#64)
      ∧ (b ≠ 0#64 → ¬(a = BitVec.intMin 64 ∧ b = BitVec.allOnes 64) →
        (mulFn .div a b).toInt = a.toInt.tdiv b.toInt)
      ∧ (b ≠ 0#64 → (mulFn .rem a b).toInt = a.toInt - b.toInt * a.toInt.tdiv b.toInt
        ∧ (mulFn .divu a b).toNat = a.toNat / b.toNat ∧ (mulFn .remu a b).toNat = a.toNat % b.toNat))
  ∧ (∀ x : Nat, x < 2 ^ 24 →
      let fn := x / 16 % 32
      let turned (w : Nat) : Prop := (decodeWord w).isOk = false
      (17 ≤ fn ∨ (fn = 14 ∨ fn = 15) ∧ x / 512 % 32 ≠ 0 → turned (0x01000000 + x))
      ∧ (7 ≤ fn → turned (0x02000000 + x)) ∧ (4 ≤ fn → turned (0x0E000000 + x))
      ∧ (x / 64 % 256 ≠ 0 → turned (0x07000000 + x) ∧ turned (0x08000000 + x) ∧ turned (0x09000000 + x)))
  ∧ ∀ (s : State) (d a b imm sh : Nat) (g : Guard), s.present = true → d < 32 → s.guardOk g = true →
    (∀ f, writesS (.alu f d a b g) .s s d (aluFn f (s.rdS d) (s.rdS a) (s.rdS b)))
    ∧ (∀ f, (usesDivider f = true → s.st.divAt ≤ s.now) →
        writesS (.muldiv f d a b g) .s s d (mulFn f (s.rdS a) (s.rdS b)))
    ∧ writesS (.addi d a imm) .s s d (s.rdS a + BitVec.ofInt 64 (sextInt 14 imm))
    ∧ writesS (.andi d a imm) .s s d (s.rdS a &&& BitVec.ofNat 64 imm)
    ∧ writesS (.ori d a imm) .s s d (s.rdS a ||| BitVec.ofNat 64 imm)
    ∧ writesS (.xori d a imm) .s s d (s.rdS a ^^^ BitVec.ofNat 64 imm)
    ∧ (∀ n, n < 64 → writesS (.shli d a n) .s s d (s.rdS a <<< n) ∧ writesS (.shri d a n) .s s d (s.rdS a >>> n)
        ∧ writesS (.srai d a n) .s s d ((s.rdS a).sshiftRight n))
    ∧ writesS (.lui d imm) .s s d (BitVec.ofInt 64 (sextInt 33 (imm * 2 ^ 14)))
    ∧ writesS (.luh d imm) .s s d (BitVec.ofInt 31 (sextInt 19 imm) ++ (s.rdS d).extractLsb' 0 33)
    ∧ writesS (.lea d a b sh g) .s s d (s.rdS a + s.rdS b <<< sh)
    ∧ writesS (.ctos d g) .s s d (s.st.regs.c.zeroExtend 64)

/-- The relations of Table 4.3; CMP, CMPI, STOC and PTG write conditions and branch targets (R85, R86, R126), and a PTG
whose target lies outside the text raises ILLEGAL_OPERAND. -/
def Obligations.ConditionsAndTargets : Prop :=
  (∀ x y : Dbl,
      (relation .eq x y = true ↔ x = y) ∧ (relation .ne x y = true ↔ x ≠ y)
      ∧ (relation .lt x y = true ↔ x.toInt < y.toInt) ∧ (relation .ge x y = true ↔ y.toInt ≤ x.toInt)
      ∧ (relation .ltu x y = true ↔ x.toNat < y.toNat) ∧ (relation .geu x y = true ↔ y.toNat ≤ x.toNat))
  ∧ (∀ (s : State) (c a b bt imm : Nat) (r : Rel) (g : Guard), s.present = true → c < 4 → bt < 8 → s.guardOk g = true →
      (∃ t, exec (.cmp r c a b g) s = .next t ∧ wordDone .s s t
        ∧ t.getC c = relation r (s.rdS a) (s.rdS b) ∧ ∀ j, j ≠ c → t.getC j = s.getC j)
      ∧ (∃ t, exec (.cmpi r c a imm) s = .next t ∧ wordDone .s s t
        ∧ t.getC c = relation r (s.rdS a) (BitVec.ofInt 64 (sextInt 14 imm)) ∧ ∀ j, j ≠ c → t.getC j = s.getC j)
      ∧ (∃ t, exec (.stoc a g) s = .next t ∧ wordDone .s s t ∧ ∀ j, j < 4 → t.getC j = (s.rdS a).getLsbD j)
      ∧ (let x : Int := ((s.st.eng .s).pc : Int) + 4 * sextInt 21 imm
        (0 ≤ x → x < (4 * (s.text s.cur).length : Nat) →
          ∃ t, exec (.ptg bt imm) s = .next t ∧ wordDone .s s t ∧ t.getB bt = BitVec.ofInt 32 x)
        ∧ (x < 0 ∨ (4 * (s.text s.cur).length : Nat) ≤ x →
          exec (.ptg bt imm) s = .next (takeFault
            { code := .illegalOperand, engine := 0, text := (s.st.eng .s).pc } s))))

/-- A word whose guard fails only issues (R56). NOP, VNOP, MNOP and CNOP only issue, and WAIT, VWAIT, MWAIT and CWAIT issue
once every token they name is clear (R52, R111); MNOP and MWAIT also await Keystone, which may hold words before them (R311,
R312). EVSIG and EVCLR set and clear the named events, where an event set in the same cycle stays set (R112), and EVWAIT
issues once any or all of them are set, at once for an empty mask (R113). -/
def Obligations.WaitsAndEvents : Prop :=
  (∀ (i : Instr) (g : Guard) (s : State), guardOf i = some g → s.guardOk g = false →
      exec i s = .next (s.retire .s))
  ∧ (∀ (s : State) (m : Nat), s.present = true →
      exec .nop s = .next (s.retire .s) ∧ exec .vnop s = .next (s.retire .v) ∧ exec .cnop s = .next (s.retire .c)
      ∧ (s.keyGate.isOk = true → exec .mnop s = .next (s.retire .m))
      ∧ ((∀ j, j < 8 → bit m j = true → s.st.tokCount j = 0) →
        let still (t : State) : Prop := t.st.regs = s.st.regs ∧ t.st.qs = s.st.qs ∧ onlyStrand s t
        issues (.wait m) .s s still ∧ issues (.vwait m) .v s still ∧ issues (.cwait m) .c s still
        ∧ (s.st.ks.window = [] → issues (.mwait m) .m s still))
      ∧ (∀ j, j < 8 → bit m j = true → s.st.tokCount j ≠ 0 →
        exec (.wait m) s = .next s ∧ exec (.vwait m) s = .next s ∧ exec (.cwait m) s = .next s))
  ∧ (∀ (s : State) (e : EvSel), s.present = true →
      (∃ t, exec (.evsig e) s = .next t ∧ wordDone .s s t ∧ t.st.regs.e = s.st.regs.e ||| s.evMask e)
      ∧ (∃ t, exec (.evclr e) s = .next t ∧ wordDone .s s t ∧ t.st.regs.e = s.st.regs.e &&& (~~~ s.evMask e ||| s.st.cyc.evs))
      ∧ (s.st.commit ≠ .done →
        (s.evMask e = 0#32 ∨ s.st.regs.e &&& s.evMask e ≠ 0#32 → issues (.evwait e .any) .s s (fun t =>
          t.st.regs = s.st.regs ∧ t.st.qs = s.st.qs ∧ onlyStrand s t))
        ∧ (s.st.regs.e &&& s.evMask e = s.evMask e → issues (.evwait e .all) .s s (fun t =>
          t.st.regs = s.st.regs ∧ t.st.qs = s.st.qs ∧ onlyStrand s t))
        ∧ (s.evMask e ≠ 0#32 → s.st.regs.e &&& s.evMask e = 0#32 →
          exec (.evwait e .any) s = .next s ∧ exec (.evwait e .all) s = .next s)))

/-- Frame of the scalar datapath: a word of it changes nothing but the acting strand, no byte of any memory, and of the
strand only its destination register, the conditions it names, the events, and what issuing a word changes. PTG, where its target
lies in the text, changes its branch target register, and XFER, where it may stand, b7 and the outcome queues (R85, R87). -/
def Obligations.ScalarFrame : Prop :=
  (∀ (i : Instr) (s t : State), scalarWord i = true → s.present = true → s.st.commit ≠ .done → exec i s = .next t →
    onlyStrand s t ∧ sameBytes s t
    ∧ (∀ n, scalarDest i ≠ some n → t.getS n = s.getS n)
    ∧ (∀ j, bit (condsWritten i) j = false → t.getC j = s.getC j)
    ∧ (∀ e, e ≠ .s → t.st.eng e = s.st.eng e)
    ∧ t.st.regs.b = s.st.regs.b ∧ t.st.regs.v = s.st.regs.v ∧ t.st.regs.t = s.st.regs.t ∧ t.st.regs.tt = s.st.regs.tt
    ∧ t.st.regs.km = s.st.regs.km ∧ t.st.regs.kc = s.st.regs.kc ∧ t.st.regs.bd = s.st.regs.bd
    ∧ t.st.regs.w = s.st.regs.w ∧ t.st.regs.pred = s.st.regs.pred ∧ t.st.qs = s.st.qs ∧ t.st.flags = s.st.flags
    ∧ t.st.psts = s.st.psts ∧ t.st.commit = s.st.commit ∧ t.st.halted = s.st.halted ∧ t.st.ks = s.st.ks
    ∧ ((∀ e, i ≠ .evsig e ∧ i ≠ .evclr e) → t.st.regs.e = s.st.regs.e))
  ∧ (∀ (i : Instr) (s t : State) (n bt imm l u ci cs bm : Nat), s.present = true → exec i s = .next t →
    let x : Int := ((s.st.eng .s).pc : Int) + 4 * sextInt 21 imm
    (i = .ptg bt imm ∧ n = bt ∧ 0 ≤ x ∧ x < (4 * (s.text s.cur).length : Nat)
      ∨ i = .xfer bt l u ci cs bm ∧ n = 7 ∧ (s.st.eng .s).slots = 0 ∧ (s.slot2 .s).isSome = true) →
    onlyStrand s t ∧ sameBytes s t ∧ (∀ j, t.getS j = s.getS j) ∧ (∀ j, t.getC j = s.getC j)
    ∧ (∀ j, j ≠ n → t.getB j = s.getB j) ∧ (∀ e, e ≠ .s → t.st.eng e = s.st.eng e)
    ∧ t.st.regs = { s.st.regs with b := t.st.regs.b } ∧ t.st.qs = { s.st.qs with oq := t.st.qs.oq }
    ∧ (i = .ptg bt imm → t.st.qs = s.st.qs)
    ∧ t.st.flags = s.st.flags ∧ t.st.rets = s.st.rets ∧ t.st.psts = s.st.psts ∧ t.st.acc = s.st.acc
    ∧ t.st.commit = s.st.commit ∧ t.st.halted = s.st.halted ∧ t.st.held = s.st.held ∧ t.st.ks = s.st.ks)

/-! ## Memory, scratchpad objects and caches -/

/-- Loads, from the strand's own scratchpad and from every other place that an address resolves to: the value read at issue is on
its way to s[D] under w0, zero- or sign-extended (R102, R129, R130), and LDA then acquires, in the core's L1 and, at .stack and
wider, in its slice (R232). That LDA performs and acquires in the step of its issue is the model's (assumptions 8 and 10). A memory
return lands in any order: the bits its mask names take its value, the rest of the registers stays, it leaves the list and its
token counts one less (R102, R110). -/
def Obligations.Loads : Prop :=
  (∀ (s : State) (d a oc off o : Nat) (sz : Size) (wz : WSize) (sc : Scope), s.able → s.st.tokCount 0 < 63 →
      (s.ownAt (s.effAddr a 8 off (sizeBytes sz)) (sizeBytes sz) o →
        issues (.ld d a oc sz off) .s s (fun t => returning s t d (s.own o (sizeBytes sz)) ∧ sameBytes s t)
        ∧ issues (.lds d a oc sz off) .s s (fun t =>
            returning s t d (wrapInt 64 (sextInt (8 * sizeBytes sz) (s.own o (sizeBytes sz)))) ∧ sameBytes s t))
      ∧ (s.ownAt (s.effAddr a 5 off (wsizeBytes wz)) (wsizeBytes wz) o →
        issues (.lda d a oc sc wz off) .s s (fun t => returning s t d (s.own o (wsizeBytes wz))
          ∧ (∀ p, t.byteAt p = s.byteAt p) ∧ (sc ≠ .core → onlyDirty (t.core s.cur).l1)
          ∧ (sc ≠ .core → sc ≠ .cluster → onlyDirty (t.cluster (clusterOf s.cur)).slice))))
  ∧ (∀ (s s1 : State) (d a oc off : Nat) (sz : Size) (wz : WSize) (sc : Scope) (p : Target), s.able → s.st.tokCount 0 < 63 →
      let got (n : Nat) : Nat := ofLanes 8 ((List.range n).map (fun i => (s1.loadByte s.cur p n i).toNat))
      let reach (va n : Nat) : Prop := va % n = 0 ∧ s.resolve s.cur va .rd = .ok (p, s1) ∧ s1.placeOk n p
      (reach (s.effAddr a 8 off (sizeBytes sz)) (sizeBytes sz) →
        issues (.ld d a oc sz off) .s s (fun t => returning s t d (got (sizeBytes sz)))
        ∧ issues (.lds d a oc sz off) .s s (fun t =>
            returning s t d (wrapInt 64 (sextInt (8 * sizeBytes sz) (got (sizeBytes sz))))))
      ∧ (reach (s.effAddr a 5 off (wsizeBytes wz)) (wsizeBytes wz) →
        issues (.lda d a oc sc wz off) .s s (fun t => returning s t d (got (wsizeBytes wz))
          ∧ (sc ≠ .core → onlyDirty (t.core s.cur).l1)
          ∧ (sc ≠ .core → sc ≠ .cluster → onlyDirty (t.cluster (clusterOf s.cur)).slice))))
  ∧ (∀ (s : State) (k i : Nat) (r : Ret), k < s.cores.length → (s.strand k).shape = true → (s.strand k).rets[i]? = some r →
      ∃ t, exec (.memoryReturn k i) s = .next t
        ∧ (t.strand k).rets.length + 1 = (s.strand k).rets.length
        ∧ (t.strand k).tokCount r.tok = (s.strand k).tokCount r.tok - 1
        ∧ (∀ n, n < 32 → ∀ j, j < 64 → (lget (t.strand k).regs.s n 0#64).getLsbD j =
            if r.dst = .s n ∧ r.mask.testBit j = true then r.val.testBit j else (lget (s.strand k).regs.s n 0#64).getLsbD j)
        ∧ (∀ n, n < 32 → ∀ j, j < 1024 → (lget (t.strand k).regs.v n 0#1024).getLsbD j =
            if r.dst = .v n ∧ r.mask.testBit j = true then r.val.testBit j
            else (lget (s.strand k).regs.v n 0#1024).getLsbD j)
        ∧ (∀ n, n < 8 → ∀ j, j < 65536 → (lget (t.strand k).regs.t n 0#65536).getLsbD j =
            if r.dst = .t n ∧ r.mask.testBit j = true then r.val.testBit j
            else (lget (s.strand k).regs.t n 0#65536).getLsbD j)
        ∧ (∀ p, t.byteAt p = s.byteAt p))

/-- Where ST stores, for every place an address can reach (R127, R129, R222): the bytes of s[D] at the place that the address
resolves to, and no byte anywhere else. A store to device memory stays in the core's L1, where only the core's own loads
find it; where its line finds no room there, a line that has to leave is written back. -/
def Obligations.StoreBytes : Prop :=
  ∀ (s s1 : State) (d a oc off : Nat) (sz : Size) (p : Target), s.shape = true → s.able →
    let n := sizeBytes sz
    let va := s.effAddr a 8 off n
    let b (i : Nat) : Byte := (s.rdS d).extractLsb' (8 * i) 8
    va % n = 0 → s.resolve s.cur va .wr = .ok (p, s1) →
    issues (.st d a oc sz off) .s s (fun t =>
      storedAt s t n p b
      ∧ ((∀ x, p ≠ .mem x) → t.home = s.home ∧ ∀ k x, t.seen k x = s.seen k x)
      ∧ (∀ x, p = .mem x → x % n = 0 → s.l1Room s.cur (lineKey x) → t.home = s.home
          ∧ ∀ k y, k ≠ s.cur ∨ y < x ∨ x + n ≤ y → t.seen k y = s.seen k y))

/-- Releases and acquires (R130, R231, R232, R234), where no dirty line belongs to a page that is withdrawn, whose bytes R381
gives up. STL stores at any place its address resolves to, after a release. A release leaves no dirty byte in the caches its scope
names, and at .system HBM holds what the homes hold; an acquire leaves no clean byte of the classes its mask names. After a fence
at .device every dirty byte of the core's L1 stands at its home. The model's are: a release and an acquire in the one step of the
word, over every class of the mask (assumption 8), and all of HBM made equal to its homes at .system (assumption 18). -/
def Obligations.ReleasesAndAcquires : Prop :=
  (∀ (s s1 : State) (d a oc off : Nat) (sz : WSize) (sc : Scope) (p : Target), s.able → s.shape = true → s.drains s.cur →
      let n := wsizeBytes sz
      let va := s.effAddr a 5 off n
      va % n = 0 → s.resolve s.cur va .wr = .ok (p, s1) →
      issues (.stl d a oc sc sz off) .s s (fun t => storedAt s t n p (fun i => (s.rdS d).extractLsb' (8 * i) 8)
        ∧ (sc ≠ .core → ∀ l ∈ (t.core s.cur).l1, (∀ x, p = .mem x → l.key ≠ lineKey x) → l.dirty = 0#128)
        ∧ (sc ≠ .core → sc ≠ .cluster → allClean (t.cluster (clusterOf s.cur)).slice)
        ∧ (sc = .system → t.hbm = t.home)))
  ∧ (∀ (s : State) (sc : Scope) (cm : Nat), s.able → s.shape = true → s.drains s.cur →
      (∀ k, k ≠ .acq → issues (.fence k sc cm) .s s (fun t =>
        (sc ≠ .core → allClean (t.core s.cur).l1)
        ∧ (sc ≠ .core → sc ≠ .cluster → allClean (t.cluster (clusterOf s.cur)).slice)
        ∧ (sc = .system → t.hbm = t.home)))
      ∧ (∀ k, k ≠ .rel → issues (.fence k sc cm) .s s (fun t =>
        (sc ≠ .core → ∀ l ∈ (t.core s.cur).l1, bit cm l.cls = true → l.valid = l.dirty)
        ∧ (sc ≠ .core → sc ≠ .cluster →
          ∀ l ∈ (t.cluster (clusterOf s.cur)).slice, bit cm l.cls = true → l.valid = l.dirty))))
  ∧ (∀ (s : State) (l : Line) (i cm : Nat), s.able → s.shape = true → s.memWf = true → s.drains s.cur →
      l ∈ (s.core s.cur).l1 → i < 128 →
      l.dirty.getLsbD i = true →
      issues (.fence .full .device cm) .s s (fun t => mget t.home (l.key + i) = lineByte l.data i))

/-- The functions of AMO at a width of w bits (R47, R131): FADD32 gives the canonical NaN for a NaN and for infinities of opposite
sign, and else the sum rounded once. AMO and CAS on the strand's own scratchpad, and at every other place that an address resolves
to: they return the old value and write the new one, in the core's slice at a narrow scope and at the home at a wider one (R131,
R132, R223). That they are applied in the step of their issue is the model's (assumption 10). -/
def Obligations.Atomics : Prop :=
  (∀ w x y : Nat, 0 < w → x < 2 ^ w → y < 2 ^ w →
      amoFn .add w x y = (x + y) % 2 ^ w ∧ amoFn .and w x y = x &&& y ∧ amoFn .or w x y = x ||| y
      ∧ amoFn .xor w x y = x ^^^ y ∧ amoFn .swap w x y = y
      ∧ sextInt w (amoFn .min w x y) = min (sextInt w x) (sextInt w y)
      ∧ sextInt w (amoFn .max w x y) = max (sextInt w x) (sextInt w y)
      ∧ amoFn .minu w x y = min x y ∧ amoFn .maxu w x y = max x y)
  ∧ (∀ x y : Nat, x < 2 ^ 32 → y < 2 ^ 32 →
      let nan (z : Nat) : Prop := 0x7F800000 < z % 2 ^ 31
      let inf (z : Nat) : Prop := z % 2 ^ 31 = 0x7F800000
      (nan x ∨ nan y ∨ inf x ∧ inf y ∧ x ≠ y → amoFn .fadd32 32 x y = 0x7FC00000)
      ∧ (inf x → ¬ nan y → ¬ (inf y ∧ x ≠ y) → amoFn .fadd32 32 x y = x)
      ∧ (inf y → ¬ nan x → ¬ (inf x ∧ x ≠ y) → amoFn .fadd32 32 x y = y)
      ∧ (x = 0x80000000 → y = 0x80000000 → amoFn .fadd32 32 x y = 0x80000000)
      ∧ amoFn .fadd32 32 x y = amoFn .fadd32 32 y x)
  ∧ (∀ (s : State) (d a b o : Nat) (sz : WSize) (sc : Scope) (f : AmoFn), s.able → s.st.tokCount 0 < 63 →
      let n := wsizeBytes sz
      s.ownAt (s.rdS a).toNat n o →
      let old := s.own o n
      let v := (s.rdS b).toNat % 2 ^ (8 * n)
      issues (.amo f d a b sc sz) .s s (fun t =>
        returning s t d old ∧ t.own o n = amoFn f (8 * n) old v % 2 ^ (8 * n) ∧ otherBytes s t o n)
      ∧ issues (.cas d a b sc sz) .s s (fun t =>
        returning s t d old ∧ t.own o n = (if old = (s.rdS d).toNat % 2 ^ (8 * n) then v else old) ∧ otherBytes s t o n))
  ∧ (∀ (s s1 : State) (d a b : Nat) (sz : WSize) (sc : Scope) (f : AmoFn) (p : Target), s.able → s.shape = true →
      s.memWf = true → s.st.tokCount 0 < 63 →
      let n := wsizeBytes sz
      (s.rdS a).toNat % n = 0 → s.resolve s.cur (s.rdS a).toNat .amo = .ok (p, s1) → s1.placeOk n p →
      let old := ofLanes 8 ((List.range n).map (fun i => (s1.atomByte s.cur sc p i).toNat))
      let v := (s.rdS b).toNat % 2 ^ (8 * n)
      let wide : Prop := sc ≠ .core ∧ sc ≠ .cluster
      let wrote (t : State) (x : Nat) : Prop :=
        returning s t d old
        ∧ (∀ i, i < n → ((∀ y, p ≠ .mem y) → t.byteAt (p.plus i) = BitVec.ofNat 8 (fld x (8 * i) 8))
          ∧ ∀ y, p = .mem y → t.seen s.cur (y + i) = BitVec.ofNat 8 (fld x (8 * i) 8)
            ∧ (wide → mget t.home (y + i) = BitVec.ofNat 8 (fld x (8 * i) 8)))
        ∧ (∀ q, (∀ y, q ≠ .mem y) → (∀ i, i < n → q ≠ p.plus i) → t.byteAt q = s.byteAt q)
      ((p.isBus = true → amoBus f = true) → issues (.amo f d a b sc sz) .s s (fun t => wrote t (amoFn f (8 * n) old v)))
      ∧ (p.isBus = true → amoBus f = false →
        exec (.amo f d a b sc sz) s = .next (takeFault (faultAt s .s { code := .permission, addr := (s.rdS a).toNat }) s))
      ∧ issues (.cas d a b sc sz) .s s (fun t => wrote t (if old = (s.rdS d).toNat % 2 ^ (8 * n) then v else old)))

/-- Accesses that are turned away (Table 6.3): a misaligned address, then a hole, then the scratchpad region outside its
windows or beyond the allotment. The fault is precise, and the word writes nothing. The checks of WAITA, BAR and FUT in their order
(Table 9.3, R191). -/
def Obligations.AccessFaults : Prop :=
  (∀ (s : State) (i : Instr) (va n : Nat), accessOf s i = some (va, n) → s.st.commit ≠ .done →
    s.st.storing .s none = false → s.st.vamo = none →
    let stop (c : FCode) := exec i s = .next (takeFault (faultAt s .s { code := c, addr := va }) s)
    (va % n ≠ 0 → stop .alignment)
    ∧ (va % n = 0 → window va = .hole → stop .translation)
    ∧ (va % n = 0 → window va = .spadGap → stop .scratchBounds)
    ∧ (va % n = 0 → ∀ o, window va = .spad none o → s.st.allot ≤ o → stop .scratchBounds))
  ∧ (∀ (s : State) (i : Instr) (va n : Nat), syncOf s i = some (va, n) → s.passes i = true → s.st.commit ≠ .done →
    s.st.poll = none →
    let stop (c : FCode) := exec i s = .next (takeFault (faultAt s .s { code := c, addr := va }) s)
    (va % n ≠ 0 → stop .alignment)
    ∧ (va % n = 0 → 2 ^ 48 ≤ va → stop .translation)
    ∧ (va % n = 0 → va < 2 ^ 48 → (∀ p o, window va ≠ .spad p o) → stop .permission)
    ∧ (va % n = 0 → ∀ o, window va = .spad none o → s.st.allot ≤ o ∨ s.carveBase s.cur ≤ o → stop .scratchBounds))

/-- CMAINT (R235): at L1 and slice it leaves no line of the range, or with CLEAN no dirty one, where no dirty line belongs to a page
that is withdrawn; at the memory-side cache it writes the homes' bytes of the range into HBM. No register, no cache of another core
or cluster and no byte but what the caches have written back changes. A task without the cache-maintenance privilege takes
PRIVILEGE, a range of more than 2^30 bytes ILLEGAL_OPERAND, and one past the end of the address space TRANSLATION. -/
def Obligations.CacheMaintenance : Prop :=
  ∀ (s : State) (op : CmOp) (lv : CmLevel) (a b : Nat) (g : Guard), s.able → s.shape = true → s.memWf = true →
    s.guardOk g = true →
    let lo := (s.rdS a).toNat
    let n := (s.rdS b).toNat
    let stop (f : FInfo) := exec (.cmaint op lv a b g) s = .next (takeFault (faultAt s .s f) s)
    (bit s.st.task.flags 1 = false → stop { code := .privilege })
    ∧ (bit s.st.task.flags 1 = true → 2 ^ 30 < n → stop { code := .illegalOperand })
    ∧ (bit s.st.task.flags 1 = true → n ≤ 2 ^ 30 → 2 ^ 48 < lo + n → stop { code := .translation, addr := lo })
    ∧ (bit s.st.task.flags 1 = true → n = 0 → lo ≤ 2 ^ 48 → exec (.cmaint op lv a b g) s = .next (s.retire .s))
    ∧ (bit s.st.task.flags 1 = true → 0 < n → n ≤ 2 ^ 30 → lo + n ≤ 2 ^ 48 → s.drains s.cur →
      ∀ rs s1, s.keyRanges s.cur lo (lo + n) = .ok (rs, s1) → issues (.cmaint op lv a b g) .s s (fun t =>
        (lv = .l1 → ∀ l ∈ (t.core s.cur).l1, overlaps rs l.key = true → op = .clean ∧ l.dirty = 0#128)
        ∧ (lv = .slice → ∀ l ∈ (t.cluster (clusterOf s.cur)).slice, overlaps rs l.key = true →
            op = .clean ∧ l.dirty = 0#128)
        ∧ (lv = .msc → t.home = s.home
          ∧ ∀ x, mget t.hbm x = if overlaps rs (lineKey x) = true then mget s.home x else mget s.hbm x)
        ∧ t.st.regs = s.st.regs ∧ (∀ k, k ≠ s.cur ∨ lv ≠ .l1 → (t.core k).l1 = (s.core k).l1)
        ∧ (∀ m, m ≠ clusterOf s.cur ∨ lv = .msc → (t.cluster m).slice = (s.cluster m).slice)
        ∧ (∀ p, (∀ x, p ≠ .mem x) → t.byteAt p = s.byteAt p) ∧ homeKept s t s.cur))

/-- WAITA (R195): it fixes its object, its operand and its limit at issue, completes on a value that satisfies its relation,
waits otherwise, completes later with the value that satisfied it or the one it reads then, and at WAITA_TIMEOUT whatever the
value. BAR ARRIVE, BAR EXPECT and BAR ARRIVE_EXPECT on a barrier of the own scratchpad (R198): the new barrier by its fields,
the phase joined returned, and every condition under which a step is an ILLEGAL_OPERAND: reserved bits or ERR for all four words
(R191), arrivals complete for the two that arrive, and a count that leaves PEND's range for the two that expect. BAR WAIT completes
once the phase has moved on, and raises ILLEGAL_OPERAND where what it waits on has shown ERR. A strand that waits reads its object
after each step; that any write to a barrier counts as one is the model's (assumption 142). -/
def Obligations.SignalsAndBarriers : Prop :=
  (∀ (s : State) (r : Rel) (sz : WSize) (d a b o : Nat) (g : Guard), s.able → s.shape = true → s.guardOk g = true →
      s.ownAt (s.rdS a).toNat (wsizeBytes sz) o → d < 32 → s.st.poll = none →
      let x := waitaExt r sz (s.own o (wsizeBytes sz))
      let y := waitaExt r sz (s.rdS b).toNat
      (relation r x y = true → issues (.waita r sz d a b g) .s s (fun t => holdsS t d x ∧ otherRegs s t d
        ∧ (∀ p, t.byteAt p = s.byteAt p) ∧ t.st.poll = none ∧ onlyDirty (t.core s.cur).l1))
      ∧ (relation r x y = false → ∃ t p, exec (.waita r sz d a b g) s = .next t ∧ onlyStrand s t
        ∧ t.st.eng .s = s.st.eng .s ∧ t.st.regs = s.st.regs ∧ t.st.poll = some p ∧ p.core = s.cur ∧ p.off = o
        ∧ p.test = some (r, sz) ∧ p.y = y ∧ p.t0 = s.now ∧ p.lim = s.st.wtimeout ∧ p.hit = none))
  ∧ (∀ (s : State) (r : Rel) (sz : WSize) (d a b : Nat) (g : Guard) (p : Poll), s.able → s.shape = true →
      s.guardOk g = true → d < 32 → s.st.poll = some p →
      let x := p.hit.getD (waitaExt r sz (mnat (s.core p.core).spad p.off (wsizeBytes sz)))
      let late : Prop := p.lim ≠ 0 ∧ p.t0 + p.lim ≤ s.now
      let P (t : State) : Prop := holdsS t d x ∧ otherRegs s t d ∧ (∀ q, t.byteAt q = s.byteAt q) ∧ t.st.poll = none
        ∧ onlyDirty (t.core s.cur).l1
      (relation r x p.y = true ∨ late → issues (.waita r sz d a b g) .s s P)
      ∧ (relation r x p.y = false → ¬ late → ∃ t, exec (.waita r sz d a b g) s = .next t ∧ onlyStrand s t
        ∧ t.st.poll = some p ∧ t.st.eng .s = s.st.eng .s ∧ t.st.regs = s.st.regs)
      ∧ (late → s.mayAct s.cur .s = true →
        decodeWord (lget (s.text s.cur) (s.st.es.pc / 4) 0) = .ok (.waita r sz d a b g) →
        issues (.waitaTimeout s.cur) .s s P))
  ∧ (∀ (s : State) (d a b o : Nat) (g : Guard), s.able → s.shape = true → s.guardOk g = true →
      s.ownAt (s.rdS a).toNat 16 o → d < 32 →
      let (c, n, p, q) := barFields (s.own o 16)
      let m := (s.rdS b).toNat
      let now (t : State) : Nat × Nat × Nat × Int := barFields (t.own o 16)
      let stop (i : Instr) :=
        exec i s = .next (takeFault (faultAt s .s { code := .illegalOperand, addr := (s.rdS a).toNat }) s)
      (barBad (s.own o 16) = true → stop (.barArrive d a g) ∧ stop (.barExpect a b g) ∧ stop (.barArriveExpect d a b g)
        ∧ (s.st.poll = none → stop (.barWait a b g)))
      ∧ (c = n → stop (.barArrive d a g) ∧ stop (.barArriveExpect d a b g))
      ∧ (2 ^ 27 - 1 < m ∨ 2 ^ 27 - 1 < q + m → stop (.barExpect a b g) ∧ stop (.barArriveExpect d a b g))
      ∧ (barBad (s.own o 16) = false →
      (c ≠ n → s.drains s.cur → issues (.barArrive d a g) .s s (fun t => now t = settled ((c + 1) % 65536) n p q
        ∧ holdsS t d (BitVec.ofNat 64 p) ∧ otherRegs s t d ∧ otherBytes s t o 16))
      ∧ (m ≤ 2 ^ 27 - 1 → q + m ≤ 2 ^ 27 - 1 → issues (.barExpect a b g) .s s (fun t => now t = settled c n p (q + m)
        ∧ (∀ j, t.getS j = s.getS j) ∧ otherBytes s t o 16))
      ∧ (c ≠ n → m ≤ 2 ^ 27 - 1 → q + m ≤ 2 ^ 27 - 1 → s.drains s.cur → issues (.barArriveExpect d a b g) .s s (fun t =>
        now t = settled ((c + 1) % 65536) n p (q + m) ∧ holdsS t d (BitVec.ofNat 64 p) ∧ otherRegs s t d
        ∧ otherBytes s t o 16))
      ∧ (s.st.poll = none →
        (p ≠ m % 65536 → issues (.barWait a b g) .s s (fun t => (∀ x, t.byteAt x = s.byteAt x)
          ∧ (∀ j, t.getS j = s.getS j) ∧ onlyDirty (t.core s.cur).l1))
        ∧ (p = m % 65536 → ∃ t w, exec (.barWait a b g) s = .next t ∧ onlyStrand s t ∧ t.st.eng .s = s.st.eng .s
          ∧ t.st.regs = s.st.regs ∧ t.st.poll = some w ∧ w.core = s.cur ∧ w.off = o ∧ w.test = none ∧ w.hit = none
          ∧ w.y = BitVec.ofNat 64 p))))
  ∧ (∀ (s : State) (a b : Nat) (g : Guard) (w : Poll), s.able → s.guardOk g = true → s.st.poll = some w →
      (w.hit = none → exec (.barWait a b g) s = .next s)
      ∧ (w.hit = some 1#64 → issues (.barWait a b g) .s s (fun t => t.st.poll = none ∧ (∀ x, t.byteAt x = s.byteAt x)
        ∧ (∀ j, t.getS j = s.getS j) ∧ onlyDirty (t.core s.cur).l1))
      ∧ (w.hit = some 0#64 →
        exec (.barWait a b g) s = .next (takeFault (faultAt s .s { code := .illegalOperand, addr := w.va }) s)))
  ∧ (∀ (s : State) (k : Nat) (w : Poll), k < s.cores.length → (s.strand k).poll = some w → w.hit = none →
      (s.watch.strand k).poll = some { w with hit := s.shows w })

/-- FPUT, FGET and FPEEK on a future of the own scratchpad (R200, R201): FGET and FPEEK wait, on the future found at their issue,
while it is empty; FPUT of a full one is FUTURE_OVERWRITE, and reserved bits an ILLEGAL_OPERAND of each word. JOIN on an object of
device memory or of the host, wherever its address resolves to: it waits at the home until the count is 0, returns the status and
acquires (R375). -/
def Obligations.FuturesAndJoins : Prop :=
  (∀ (s : State) (d a b o : Nat) (g : Guard) (w : Poll), s.able → s.shape = true → s.guardOk g = true → d < 32 →
      (s.st.poll = some w ∧ w.core = s.cur ∧ w.off = o ∨ s.st.poll = none ∧ w.va = (s.rdS a).toNat ∧ s.ownAt w.va 16 o) →
      let x := s.own o 16
      let v := BitVec.ofNat 64 (fld x 64 64)
      let stop (i : Instr) (c : FCode) := exec i s = .next (takeFault (faultAt s .s { code := c, addr := w.va }) s)
      let waits (i : Instr) := ∃ t q, exec i s = .next t ∧ onlyStrand s t ∧ t.st.eng .s = s.st.eng .s
        ∧ t.st.regs = s.st.regs ∧ t.st.poll = some q ∧ q.va = w.va ∧ q.core = s.cur ∧ q.off = o
      (futBad x = true → stop (.fput a b g) .illegalOperand ∧ stop (.fget d a g) .illegalOperand
        ∧ stop (.fpeek d a g) .illegalOperand)
      ∧ (futBad x = false → bit x 0 = false →
        (s.drains s.cur → issues (.fput a b g) .s s (fun t => bit (t.own o 16) 0 = true ∧ futBad (t.own o 16) = false
          ∧ BitVec.ofNat 64 (fld (t.own o 16) 64 64) = s.rdS b ∧ (∀ j, t.getS j = s.getS j) ∧ otherBytes s t o 16))
        ∧ waits (.fget d a g) ∧ waits (.fpeek d a g))
      ∧ (futBad x = false → bit x 0 = true → stop (.fput a b g) .futureOverwrite
        ∧ issues (.fget d a g) .s s (fun t => bit (t.own o 16) 0 = false ∧ holdsS t d v ∧ otherRegs s t d
            ∧ t.st.poll = none ∧ otherBytes s t o 16)
        ∧ issues (.fpeek d a g) .s s (fun t => holdsS t d v ∧ otherRegs s t d ∧ t.st.poll = none
            ∧ ∀ p, t.byteAt p = s.byteAt p)))
  ∧ (∀ (s : State) (d a : Nat) (g : Guard), s.able → s.guardOk g = true → d < 32 →
      let va := (s.st.poll.map (·.va)).getD (s.rdS a).toNat
      let stop (c : FCode) := exec (.join d a g) s = .next (takeFault (faultAt s .s { code := c, addr := va }) s)
      (va % 16 ≠ 0 → stop .alignment) ∧ (va % 16 = 0 → window va = .hole → stop .translation)
      ∧ (va % 16 = 0 → window va ≠ .hole → window va ≠ .translated → stop .permission)
      ∧ ∀ (s1 : State) (x : Nat) (p : Target), va % 16 = 0 → window va = .translated →
        s.resolve s.cur va .rd = .ok (p, s1) →
        (∃ pa, p = .mem pa ∧ pa < pcieBase ∧ x = mnat s.home pa 16) ∨ (∃ b, p = .bus b ∧ x = mnat s.host.mem b 16) →
        (joinBad x = true → stop .illegalOperand)
        ∧ (joinBad x = false → fld x 0 32 = 0 → issues (.join d a g) .s s (fun t =>
          holdsS t d (BitVec.ofNat 64 (fld x 64 64)) ∧ otherRegs s t d ∧ t.st.poll = none
          ∧ (∀ p, t.byteAt p = s.byteAt p) ∧ onlyDirty (t.core s.cur).l1
          ∧ onlyDirty (t.cluster (clusterOf s.cur)).slice))
        ∧ (joinBad x = false → fld x 0 32 ≠ 0 → ∃ t q, exec (.join d a g) s = .next t ∧ t.st.eng .s = s.st.eng .s
          ∧ t.st.regs = s.st.regs ∧ (∀ p, t.byteAt p = s.byteAt p) ∧ t.st.poll = some q ∧ q.va = va))

/-! ## Queues, ports and transfers -/

/-- Push and pop words (R136, R137, R139, R142): they append at the back, take from the front, wait while the queue is full,
and raise QUEUE_UNDERFLOW on a marker. A pop converts where source and sink types differ and neither is raw, by the conversion that
NumberFormats describes, and sets its flags. PSET appends the configuration that a parameter block of the own scratchpad holds,
and a block that breaks the limits of Table 7.7 raises COMMAND_FIELD (R145), at once even where the port is full, which is the
model's order (assumptions 35 and 135). QMARK marks each queue it names and, for bit 0, every port; the drains discard up to and
including the next marker, and those of V and M push a marker where their engine has pushed since its last drain (R148, R150). MQDRAIN
and CQDRAIN cancel the commands that have not started, setting the events that these would have set (R151); MQDRAIN closes the chain
(R302). -/
def Obligations.QueuesAndPorts : Prop :=
  (∀ (s : State) (sel a d : Nat), s.able → d < 32 →
      (sel < 3 → (s.queue sel).length < 16 → issues (.qpush sel a) .s s (fun t =>
        t.queue sel = s.queue sel ++ [some (s.rdS a)] ∧ (∀ q, q ≠ sel → t.queue q = s.queue q) ∧ onlyStrand s t))
      ∧ (16 ≤ (s.queue sel).length → exec (.qpush sel a) s = .next s)
      ∧ (s.st.qs.fq.length < 32 → issues (.fpush a) .s s (fun t =>
        t.st.qs.fq = s.st.qs.fq ++ [some ((s.rdS a).truncate 32)] ∧ onlyStrand s t))
      ∧ (∀ x l, sel < 2 → s.queue (3 + sel) = some x :: l →
        let r := qConvert (lget s.st.qs.src (3 + sel) 15) (lget s.st.qs.snk (3 + sel) 15) x
        issues (.qpop sel d) .s s (fun t => t.queue (3 + sel) = l ∧ holdsS t d r.1 ∧ otherRegs s t d
          ∧ t.st.flags = s.st.flags ||| BitVec.ofNat 6 r.2 ∧ onlyStrand s t))
      ∧ (∀ l, sel < 2 → s.queue (3 + sel) = none :: l →
        exec (.qpop sel d) s = .next (takeFault (faultAt s .s { code := .queueUnderflow }) s))
      ∧ (∀ x l, s.oq .s = x :: l → issues (.qpop 2 d) .s s (fun t =>
        t.oq .s = l ∧ holdsS t d (if x then 1#64 else 0#64) ∧ otherRegs s t d ∧ onlyStrand s t)))
  ∧ (∀ (src snk : Nat) (x : Dbl),
      (src = snk ∨ src = 15 ∨ snk = 15 → qConvert src snk x = (x, 0))
      ∧ (src ≠ snk → src ≠ 15 → snk ≠ 15 →
        let r := convert (x.toNat % 2 ^ (NTy.ofCode 0 src).width) (NTy.ofCode 0 src) (NTy.ofCode 0 snk) .rne false
        (qConvert src snk x).2 = r.2 ∧ (qConvert src snk x).1
          = if snk = 0 ∨ snk = 9 ∨ snk = 10 then BitVec.ofInt 64 (sextInt (NTy.ofCode 0 snk).width r.1)
            else BitVec.ofNat 64 r.1))
  ∧ ((∀ (s : State) (p a o : Nat), s.able → p < 4 → (s.rdS a).toNat = spadBase + o → o % 16 = 0 → o < 0x80000 →
        o + 48 ≤ s.st.allot →
        (portOk (s.own o 48) = true → (lget s.st.qs.port p {}).held < 4 → issues (.pset p a) .s s (fun t =>
          (lget t.st.qs.port p {}).cfgs = (lget s.st.qs.port p {}).cfgs ++ [some (portCfg (s.own o 48))]
          ∧ (∀ q, q ≠ p → lget t.st.qs.port q {} = lget s.st.qs.port q {}) ∧ t.st.qs.q = s.st.qs.q ∧ onlyStrand s t))
        ∧ (portOk (s.own o 48) = false →
          exec (.pset p a) s = .next (takeFault (faultAt s .s { code := .commandField, addr := (s.rdS a).toNat }) s)))
    ∧ (∀ (s : State) (m sel : Nat), s.able →
        ((∀ q, q < 3 → bit m q = true → (s.queue q).length < 16) → (bit m 3 = true → s.st.qs.fq.length < 32) →
          issues (.qmark m) .s s (fun t =>
            (∀ q, q < 3 → t.queue q = s.queue q ++ if bit m q then [none] else [])
            ∧ (∀ q, 3 ≤ q → t.queue q = s.queue q)
            ∧ t.st.qs.fq = s.st.qs.fq ++ (if bit m 3 then [none] else [])
            ∧ ∀ p, p < 4 → (lget t.st.qs.port p {}).cfgs = (lget s.st.qs.port p {}).cfgs ++ if bit m 0 then [none] else []))
        ∧ (∀ l, sel < 2 → lget s.st.drain 0 0 = 0 → toMarker (s.queue (3 + sel)) = some l → issues (.sqdrain sel) .s s (fun t =>
          t.queue (3 + sel) = l ∧ ∀ q, q ≠ 3 + sel → t.queue q = s.queue q))
        ∧ (∀ l (c : List (List (Option PortCfg))), lget s.st.drain 1 0 = 0 → toMarker (s.queue 0) = some l → c.length = 4 →
          (∀ p, p < 4 → toMarker (lget s.st.qs.port p {}).cfgs = some (lget c p [])) →
          (s.st.qs.vsPushed = true → (s.queue 3).length < 16) → (s.st.qs.vmPushed = true → (s.queue 5).length < 16) →
          issues .vqdrain .v s (fun t => t.queue 0 = l
            ∧ t.queue 3 = s.queue 3 ++ (if s.st.qs.vsPushed then [none] else [])
            ∧ t.queue 5 = s.queue 5 ++ (if s.st.qs.vmPushed then [none] else [])
            ∧ (∀ q, q ≠ 0 → q ≠ 3 → q ≠ 5 → t.queue q = s.queue q) ∧ t.st.qs.vsPushed = false ∧ t.st.qs.vmPushed = false
            ∧ ∀ p, p < 4 → lget t.st.qs.port p {} = { cfgs := lget c p [], moved := 0 }))))
  ∧ (∀ (s : State) (l : List (Option Dbl)), s.able → s.shape = true → s.cur < 128 → s.st.drain.length = 4 →
    let n := clusterOf s.cur
    let mine (c : GCmd) : Prop := c.core = s.cur ∧ c.started = false
    (∀ fq vm, s.st.ks.window = [] → s.st.cancelled = false → lget s.st.drain 2 0 = 0 → toMarker (s.queue 1) = some l →
      toMarker s.st.qs.fq = some fq →
      (none ∉ s.queue 5 ∧ s.st.qs.vmFresh = false ∧ vm = s.queue 5 ∨ toMarker (s.queue 5) = some vm) →
      (s.st.qs.msPushed = true → (s.queue 4).length < 16) →
      issues .mqdrain .m s (fun t => t.queue 1 = l ∧ t.st.qs.fq = fq ∧ t.queue 5 = vm
        ∧ t.queue 4 = s.queue 4 ++ (if s.st.qs.msPushed then [none] else []) ∧ t.st.qs.msPushed = false
        ∧ t.st.chain.opened = false ∧ (∀ x, x ∈ (t.girder n).queue ↔ x ∈ (s.girder n).queue ∧ ∀ c, x = .cmd c → ¬ mine c)
        ∧ ∀ c, .cmd c ∈ (s.girder n).queue → mine c → kEvs c.k = true → t.st.regs.e &&& kSigmask c.k = kSigmask c.k))
    ∧ (lget s.st.drain 3 0 = 0 → toMarker (s.queue 2) = some l → issues .cqdrain .c s (fun t =>
      t.queue 2 = l ∧ (t.core s.cur).ldq = (s.core s.cur).ldq.filter (·.started)
      ∧ (t.core s.cur).stq = (s.core s.cur).stq.filter (·.started)
      ∧ ∀ c ∈ (s.core s.cur).ldq ++ (s.core s.cur).stq, c.started = false → kEvs c.k = true →
        t.st.regs.e &&& kSigmask c.k = kSigmask c.k)))

/-- XFER, VBQ, MBQ and CBQ complete where they may stand: two own words follow, and they are in no delay slot (R53, R87,
R88, R90). XFER waits while a queue that it names is full (R87); in a delay slot it raises DELAY_SLOT (R88), and without two
own words after it ILLEGAL_ENCODING (R53); that DELAY_SLOT is raised where both hold is the model's (assumption 43). A
sequencer moves past its word, or after the second delay slot of a taken transfer to its target (R80, R88). -/
def Obligations.Transfers : Prop :=
  (∀ (s : State) (bt l u ci cs bm sn imm : Nat) (x : Nat), s.present = true → (s.st.eng .s).slots = 0 →
      s.slot2 .s = some x →
      let taken := u == 1 || (s.getC ci != (cs == 1))
      let named (e : Eng) : Prop := (e = .v ∧ bit bm 0 = true) ∨ (e = .m ∧ bit bm 1 = true) ∨ (e = .c ∧ bit bm 2 = true)
      ((∀ e, named e → (s.oq e).length < 16) → ∃ t, exec (.xfer bt l u ci cs bm) s = .next t
        ∧ t.st.eng .s = { s.st.eng .s with
            pc := (s.st.eng .s).pc + 4, walk := (s.st.eng .s).walk + 1, slots := 2, taken := taken
            target := (s.getB bt).toNat, next := s.now + 1 }
        ∧ (∀ e, named e → t.oq e = s.oq e ++ [taken]) ∧ (∀ e, ¬ named e → t.oq e = s.oq e)
        ∧ t.getB 7 = (if l = 1 ∧ taken = true then BitVec.ofNat 32 (x + 4) else s.getB 7)
        ∧ (∀ j, j ≠ 7 → t.getB j = s.getB j) ∧ (∀ j, t.getS j = s.getS j) ∧ onlyStrand s t)
      ∧ (∀ e, named e → 16 ≤ (s.oq e).length → exec (.xfer bt l u ci cs bm) s = .next s)
      ∧ (∀ e i, (e = .v ∧ i = .vbq sn imm) ∨ (e = .c ∧ i = .cbq sn imm)
          ∨ (e = .m ∧ i = .mbq sn imm ∧ s.st.ks.window = []) →
        (s.st.eng e).slots = 0 → ∀ y, s.slot2 e = some y →
        let z : Int := ((s.st.eng e).pc : Int) + 4 * sextInt 21 imm
        0 ≤ z → z < (4 * (s.text s.cur).length : Nat) → ∀ b q, s.oq e = b :: q →
        ∃ t, exec i s = .next t
          ∧ t.st.eng e = { s.st.eng e with
              pc := (s.st.eng e).pc + 4, walk := (s.st.eng e).walk + 1, slots := 2, taken := b == (sn == 1)
              target := z.toNat, next := s.now + 1 }
          ∧ t.oq e = q ∧ (∀ e', e' ≠ e → t.oq e' = s.oq e')))
  ∧ (∀ (s : State) (bt l u ci cs bm : Nat),
      ((s.st.eng .s).slots ≠ 0 →
        exec (.xfer bt l u ci cs bm) s = .next (takeFault (faultAt s .s { code := .delaySlot }) s))
      ∧ ((s.st.eng .s).slots = 0 → s.slot2 .s = none →
        exec (.xfer bt l u ci cs bm) s = .next (takeFault (faultAt s .s { code := .illegalEncoding }) s)))
  ∧ (∀ (x : EngSt) (now : Nat),
      ((x.slots ≠ 1 ∨ x.taken = false) → (x.step now).pc = x.pc + 4)
      ∧ (x.slots = 1 → x.taken = true → (x.step now).pc = x.target)
      ∧ (x.step now).walk = x.walk + 1 ∧ (x.step now).slots = x.slots - 1 ∧ (x.step now).next = now + 1)

/-! ## Tiles, pins, launches and system registers -/

/-- TALLOC (R214) with the class of its edge: the lowest free slot of the partition becomes the gang's open tile with its
read count; while the partition has none, the word waits in the partition's order; ILLEGAL_OPERAND where a check on its edge, its
count or the access table fails. TSEAL, TREAD and TRET on a tile of the task's pipeline (R213, R215 to R217): what they do where their
checks hold, with ILLEGAL_OPERAND for bits above the handle, PERMISSION for a handle that names no slot of the instance, and
CAISSON_COUNT and its cause where a count or a state fails; TRET marks an open tile of the gang to become free at COMMIT. That a task
without a place in a pipeline goes by its context's instance is the model's (assumption 143). -/
def Obligations.TileWords : Prop :=
  (∀ (s : State) (k : TClass) (d a b cl : Nat) (g : Guard) (ed : Edge) (p : Partition), s.able → s.guardOk g = true →
      d < 32 → let c := s.st.task.ctx
      let e := (s.st.poll.map (·.va)).getD (s.rdS a).toNat
      let n := (s.st.poll.map (·.y.toNat)).getD (s.rdS b).toNat
      ((s.edgesOf c)[e]? = none ∨ (∃ x, (s.edgesOf c)[e]? = some x ∧ (x.src ≠ s.st.task.stage ∨ x.cls ≠ tclsCode k))
          ∨ 15 < n ∨ 64 ≤ s.st.acc.length ∨ s.partition c e = none →
        exec (.talloc k d a b g) s = .next (takeFault (faultAt s .s { code := .illegalOperand }) s))
      ∧ ((s.edgesOf c)[e]? = some ed → ed.src = s.st.task.stage → ed.cls = tclsCode k → n ≤ 15 →
      s.st.acc.length < 64 → s.partition c e = some (cl, p) →
      (∀ x, p.firstFree = some x → p.waiting.head?.getD s.cur = s.cur →
        x ∈ p.slots ∧ x.st = .free ∧ (∀ y ∈ p.slots, y.st = .free → x.core * 128 + x.unit ≤ y.core * 128 + y.unit)
        ∧ issues (.talloc k d a b g) .s s (fun t =>
          holdsS t d (BitVec.ofNat 64 (Handle.num ⟨x.gen, x.core, x.unit, x.cls⟩)) ∧ otherRegs s t d
          ∧ t.st.acc = addAcc s.st.acc ⟨x.core, x.unit, x.cls, true, false⟩
          ∧ (∀ q ∈ (t.cluster (clusterOf x.core)).parts, ∀ y ∈ q.slots, y.core = x.core → y.unit = x.unit →
            y.st = .opened ∧ y.count = n ∧ y.gang = s.st.gang ∧ y.bytes = [])
          ∧ (∀ q ∈ (t.cluster cl).parts, q.ctx = c → q.edge = e → s.cur ∉ q.waiting)))
      ∧ (p.firstFree = none → ∀ y ∈ p.slots, y.st ≠ .free)
      ∧ (p.firstFree = none ∨ p.waiting.head?.getD s.cur ≠ s.cur →
        ∃ t, exec (.talloc k d a b g) s = .next t ∧ t.st.eng .s = s.st.eng .s ∧ (∀ j, t.getS j = s.getS j)
          ∧ ∀ q, t.partition c e = some (cl, q) → s.cur ∈ q.waiting ∧ q.slots = p.slots)))
  ∧ (∀ (s : State) (d a : Nat) (g : Guard) (i : Instr), s.able → s.guardOk g = true →
      i = .tseal a g ∨ i = .tread d a g ∨ i = .tret a g →
      let stop (c : FCode) := exec i s = .next (takeFault (faultAt s .s { code := c }) s)
      (2 ^ 32 ≤ (s.rdS a).toNat → stop .illegalOperand)
      ∧ ((s.rdS a).toNat < 2 ^ 32 → s.slotNamed (handleOf (s.rdS a).toNat) = none → stop .permission))
  ∧ (∀ (s : State) (d a : Nat) (g : Guard) (x : Slot), s.able → s.guardOk g = true → d < 32 → (s.rdS a).toNat < 2 ^ 32 →
      let h := handleOf (s.rdS a).toNat
      s.slotNamed h = some x →
      let stop (i : Instr) (n : Nat) :=
        exec i s = .next (takeFault (faultAt s .s { code := .caissonCount, cause := n }) s)
      let own := x.st = .opened ∧ x.gang = s.st.gang
      (x.gen ≠ h.gen → stop (.tseal a g) 1 ∧ stop (.tread d a g) 1 ∧ stop (.tret a g) 1)
      ∧ (x.gen = h.gen →
        (¬ own → stop (.tseal a g) 5) ∧ (own → x.count = 0 → stop (.tseal a g) 3)
        ∧ (own → x.count ≠ 0 → issues (.tseal a g) .s s (fun t =>
          (∀ q ∈ (t.cluster (clusterOf x.core)).parts, ∀ y ∈ q.slots, y.core = x.core → y.unit = x.unit → y.st = .pending)
          ∧ (s.st.live = true → (s.core s.cur).inPar = false →
            ∀ y ∈ t.st.acc, y.core = x.core → y.unit = x.unit → y.write = false) ∧ ∀ j, t.getS j = s.getS j))
        ∧ (s.admits x = false → stop (.tread d a g) 5)
        ∧ (s.admits x = true → x.st ≠ .opened → s.countLeft x = false → stop (.tread d a g) 2)
        ∧ (s.admits x = true → (x.st = .opened ∨ s.countLeft x = true) →
          (accRoom s.st.acc x.core x.unit = false ∨ 255 ≤ s.st.decs.length) →
          exec (.tread d a g) s = .next (takeFault (faultAt s .s { code := .illegalOperand }) s))
        ∧ (s.admits x = true → (x.st = .opened ∨ s.countLeft x = true) → accRoom s.st.acc x.core x.unit = true →
          s.st.decs.length < 255 → issues (.tread d a g) .s s (fun t =>
            holdsS t d (BitVec.ofNat 64 h.addr) ∧ otherRegs s t d
            ∧ t.st.decs = (if x.st = .opened then s.st.decs else s.st.decs ++ [⟨x.core, x.unit, x.gen⟩])
            ∧ t.st.acc = addAcc s.st.acc ⟨x.core, x.unit, x.cls, x.st == .opened, false⟩ ∧ onlyStrand s t))
        ∧ (own ∨ (s.admits x = true ∧ x.st ≠ .opened ∧ s.countLeft x = true) →
          issues (.tret a g) .s s (fun t =>
            (∀ y ∈ t.st.acc, y.core = x.core → y.unit = x.unit →
              s.cmdsName s.cur ⟨x.core, x.unit⟩ = true ∧ y.retired = true) ∧ (∀ j, t.getS j = s.getS j)
            ∧ (x.st ≠ .opened → t.st.decs = s.st.decs ++ [⟨x.core, x.unit, x.gen⟩] ∧ onlyStrand s t)
            ∧ (x.st = .opened → t.st.decs = s.st.decs ∧ ∀ q ∈ (t.cluster (clusterOf x.core)).parts, ∀ y ∈ q.slots,
              y.core = x.core → y.unit = x.unit → y.give = true)))
        ∧ (s.admits x = false → stop (.tret a g) 5)
        ∧ (s.admits x = true → x.st ≠ .opened → s.countLeft x = false → stop (.tret a g) 2)))

/-- PSNAP pins the current selectors of a published buffer and returns the version, PREL releases the pin (R242); each raises
ILLEGAL_OPERAND where its buffer, its pin or its write set does not allow it. SPAWN copies an acceptable record of the task's own
context from the allotment and holds it until the commit, and raises ALIGNMENT, SCRATCH_BOUNDS or ILLEGAL_OPERAND where the record's
place, the record or the number of records does not allow it (R374). -/
def Obligations.PinsAndSpawns : Prop :=
  (∀ (s : State) (d a : Nat) (g : Guard), s.able → s.guardOk g = true → d < 32 →
      let h := (s.rdS a).toNat
      (∀ b, h < 4096 → (s.ctx s.st.task.ctx).buf h = some b → s.st.pins.length < 4 →
        s.st.pins.any (fun p => p.buf == h) = false →
        (∀ x, s.gang s.st.gang = some x → x.wset.any (fun w => w.buf == h) = false) →
        issues (.psnap d a g) .s s (fun t => t.st.pins = s.st.pins ++ [⟨h, b.sel⟩]
          ∧ holdsS t d (BitVec.ofNat 64 b.version) ∧ otherRegs s t d ∧ onlyStrand s t))
      ∧ (4096 ≤ h ∨ (s.ctx s.st.task.ctx).buf h = none ∨ 4 ≤ s.st.pins.length ∨ s.st.pins.any (fun p => p.buf == h) = true
          ∨ (∃ x, s.gang s.st.gang = some x ∧ x.wset.any (fun w => w.buf == h) = true) →
        exec (.psnap d a g) s = .next (takeFault (faultAt s .s { code := .illegalOperand }) s))
      ∧ (h < 4096 → s.st.pins.any (fun p => p.buf == h) = true → issues (.prel a g) .s s (fun t =>
        (∀ p, p ∈ t.st.pins ↔ p ∈ s.st.pins ∧ p.buf ≠ h) ∧ onlyStrand s t))
      ∧ (4096 ≤ h ∨ s.st.pins.any (fun p => p.buf == h) = false →
        exec (.prel a g) s = .next (takeFault (faultAt s .s { code := .illegalOperand }) s)))
  ∧ (∀ (s : State) (a o : Nat) (g : Guard), s.able → s.guardOk g = true → (s.rdS a).toNat = spadBase + o → o % 64 = 0 →
      o < 0x80000 → o + 64 ≤ s.st.allot → s.recordOk (s.own o 64) 1 false = true →
      lrCtx (s.own o 64) = s.st.task.ctx → s.st.spawns < 32 →
      issues (.spawn a g) .s s (fun t => t.st.held = s.st.held ++ [.spawn (s.own o 64) (spadBase + o)]
        ∧ t.sched = s.sched ∧ onlyStrand s t))
  ∧ (∀ (s : State) (a o : Nat) (g : Guard), s.able → s.guardOk g = true →
      let va := (s.rdS a).toNat
      let stop (c : FCode) := exec (.spawn a g) s = .next (takeFault (faultAt s .s { code := c, addr := va }) s)
      (va % 64 ≠ 0 → stop .alignment)
      ∧ (va % 64 = 0 → (∀ x, window va = .spad none x → s.st.allot < x + 64) → stop .scratchBounds)
      ∧ (va % 64 = 0 → window va = .spad none o → o + 64 ≤ s.st.allot →
        (s.recordOk (s.own o 64) 1 false = false ∨ lrCtx (s.own o 64) ≠ s.st.task.ctx ∨ 32 ≤ s.st.spawns) →
        stop .illegalOperand))

/-- SYSRD writes the register's value and nothing else but s[D], and reserved indices read 0 (R134). SYSWR of a register that a
task may write leaves the write to take effect in the next cycle, and of SEQ_SLIPW at once, its bound clamped and counting from the
next cycle (R82); a privileged register raises PRIVILEGE, which is the model's for every task (assumption 50). What the writes do when
they take effect, whatever the strand that made them: flags clear where a 1 is written, but for those set in the same cycle or by
a word in flight (R44; that a flag is set at its word's issue is the model's, assumption 116), queue types take the codes of Table 7.2,
the WAITA limit is 32 bits, a CMU register of a task with a stream is held until after the commit (R344), and none changes a register
of Table 5.1 or a byte. A write takes effect before any turn of the next cycle (assumption 49). -/
def Obligations.SystemRegisters : Prop :=
  (∀ (s : State) (d idx : Nat), s.present = true → d < 32 →
      issues (.sysrd d idx) .s s (fun t => holdsS t d (BitVec.ofNat 64 (s.sysRead idx)) ∧ otherRegs s t d ∧ onlyStrand s t)
      ∧ s.sysRead 0x010 = s.st.flags.toNat ∧ s.sysRead 0x041 = s.st.wtimeout ∧ s.sysRead 0x020 % 256 = s.tileTy 0 % 256
      ∧ s.sysRead 0xF03 = s.now ∧ s.sysRead 0xF02 = s.now / 23 * 10 ∧ s.sysRead 0xF00 / 2 ^ 32 = 0x54414D50
      ∧ (∀ q, q < 6 → s.sysRead (0x030 + q) = lget s.st.qs.src q 15 ∧ s.sysRead (0x038 + q) = lget s.st.qs.snk q 15)
      ∧ (∀ x, x / 256 = 5 ∨ 10 ≤ x / 256 ∧ x / 256 ≠ 15 → s.sysRead x = 0))
  ∧ (∀ (s : State) (a : Nat), s.able →
      let v := (s.rdS a).toNat
      issues (.syswr a 0x002) .s s (fun t => t.st.slipw = max 16 (min 4096 (v % 8192)) ∧ onlyStrand s t
        ∧ t.st.bound s.now = s.st.bound s.now ∧ t.st.bound (s.now + 1) = t.st.slipw ∧ t.st.regs = s.st.regs)
      ∧ (∀ x, sysPrivileged x = false → x ≠ 0x002 → (x = 0x714 → (s.core s.cur).inPar = true) →
        issues (.syswr a x) .s s (fun t => t.st.sysq = s.st.sysq ++ [(x, v)] ∧ onlyStrand s t ∧ t.st.regs = s.st.regs
          ∧ t.st.flags = s.st.flags ∧ t.st.qs = s.st.qs ∧ t.st.wtimeout = s.st.wtimeout ∧ t.st.held = s.st.held
          ∧ (s.cur < 128 → s.shape = true → ∀ n, 0 < n →
            (x = 0x041 → (t.advance n).st.wtimeout = v % 2 ^ 32)
            ∧ (∀ q, q < 6 → queueCode (v % 16) = true →
              (x = 0x030 + q → lget (t.advance n).st.qs.src q 15 = v % 16)
              ∧ (x = 0x038 + q → lget (t.advance n).st.qs.snk q 15 = v % 16)))))
      ∧ (∀ x, sysPrivileged x = true ∨ x = 0x714 ∧ (s.core s.cur).inPar = false →
        exec (.syswr a x) s = .next (takeFault (faultAt s .s { code := .privilege }) s)))
  ∧ (∀ (s : State) (v : Nat), s.present = true →
      (let t := s.sysWrite 0x010 v
       onlyStrand s t ∧ ∀ i, i < 6 →
        (t.st.flags.getLsbD i = true → s.st.flags.getLsbD i = true)
        ∧ (s.st.flags.getLsbD i = true → v.testBit i = false ∨ s.st.cyc.fls.getLsbD i = true →
          t.st.flags.getLsbD i = true)
        ∧ (v.testBit i = true → s.st.cyc.fls.getLsbD i = false →
          (∀ p ∈ s.st.flHz, p.2 < s.now ∨ p.1.testBit i = false) → t.st.flags.getLsbD i = false))
      ∧ (s.sysWrite 0x041 v).st.wtimeout = v % 2 ^ 32
      ∧ (∀ q, q < 6 →
        lget (s.sysWrite (0x030 + q) v).st.qs.src q 15 = (if queueCode (v % 16) then v % 16 else lget s.st.qs.src q 15)
        ∧ (∀ j, j ≠ q → lget (s.sysWrite (0x030 + q) v).st.qs.src j 15 = lget s.st.qs.src j 15)
        ∧ lget (s.sysWrite (0x038 + q) v).st.qs.snk q 15 = (if queueCode (v % 16) then v % 16 else lget s.st.qs.snk q 15)
        ∧ (∀ j, j ≠ q → lget (s.sysWrite (0x038 + q) v).st.qs.snk j 15 = lget s.st.qs.snk j 15))
      ∧ (∀ x, 0x400 ≤ x → x < 0x480 → (s.ctx s.st.task.ctx).stream.isSome = true →
        (s.sysWrite x v).st.held = s.st.held ++ [.cmu x v] ∧ (s.sysWrite x v).streams = s.streams)
      ∧ (∀ x, (s.sysWrite x v).st.regs = s.st.regs ∧ ∀ p, (s.sysWrite x v).byteAt p = s.byteAt p))

/-! ## The end of a strand -/

/-- COMMIT and HALT wait for the commit step, TRAP raises its fault with its code and s[D] once every earlier S result has
landed (R135, R368, R371). A word that may not stand after the commit raises ILLEGAL_OPERAND there (R370); where it has a guard that
fails, it passes without effect (R56). -/
def Obligations.StrandEndings : Prop :=
  (∀ (s : State) (d code : Nat), s.present = true →
    (s.st.commit = .run → ∃ t, exec .commit s = .next t ∧ t.st.commit = .drain ∧ t.st.commitPos = s.st.es.pc
      ∧ t.st.es = s.st.es ∧ t.st.regs = s.st.regs ∧ onlyStrand s t)
    ∧ (s.st.commit = .drain → exec .commit s = .next s)
    ∧ (∃ t, exec .halt s = .next t ∧ t.st.halted = true ∧ t.st.es = s.st.es ∧ t.st.regs = s.st.regs ∧ onlyStrand s t
      ∧ (s.st.commit = .run → t.st.commit = .drain ∧ t.st.commitPos = s.st.es.pc)
      ∧ (s.st.commit ≠ .run → t.st.commit = s.st.commit))
    ∧ (s.st.commit ≠ .done → (∀ r ∈ s.st.rets, r.eng ≠ .s) →
      exec (.trap d code) s = .next (takeFault (faultAt s .s
        { code := .trap, data := (s.getS d).toNat, aux := some code }) s))
    ∧ (s.st.commit ≠ .done → (∃ r ∈ s.st.rets, r.eng = .s) → exec (.trap d code) s = .next s))
  ∧ (∀ (s : State) (i : Instr) (e : Eng), s.st.commit = .done → i.engine = some e → postCommitOk i = false →
    (s.passes i = true → exec i s = .next (takeFault (faultAt s e { code := .illegalOperand }) s))
    ∧ (s.passes i = false → s.present = true → issues i e s (fun t => t = s.retire e)))

/-- YIELD (R376): its word, which takes no guard. Before the commit it discards the gang of its task without a fault and gives the
record back at the head of the scheduler's list, its discard count as it was; in a pinned task, after the commit and in a Parapet
context it raises ILLEGAL_OPERAND, which in a Parapet context latches both halt outputs asserted. The model's are: the record
starts its count of checker mismatches anew and names no core (assumptions 51 and 112). -/
def Obligations.YieldWords : Prop :=
  decodeWord 0x37000000 = .ok .yield ∧ guardOf .yield = none
  ∧ ∀ (s : State), s.present = true →
    (∀ g, s.st.commit ≠ .done → (s.core s.cur).inPar = false → s.st.task.disc < 4 → s.st.gang ≠ 0 →
      s.gang s.st.gang = some g → ∃ t, exec .yield s = .next t
      ∧ t.gang s.st.gang = none
      ∧ (g.task.service = false → t.sched.recs = { g.task with onCore := none, mism := 0 } :: s.sched.recs)
      ∧ ∀ m ∈ g.members, m.ended = false → m.core < s.cores.length →
        (t.core m.core).ord = {} ∧ ∀ o, o < (s.core m.core).ord.allot → mget (t.core m.core).spad o = 0#8)
    ∧ (let bad := takeFault (faultAt s .s { code := .illegalOperand }) s
      (s.st.commit = .done ∨ (s.core s.cur).inPar = true ∨ 4 ≤ s.st.task.disc → exec .yield s = .next bad)
      ∧ ((s.core s.cur).inPar = true → bad.err.ha = true ∧ bad.err.hb = true ∧ bad.err.latch = true))

/-- What a commit makes of a slot of the pool (R210): the gang's sealed tiles become readable, its open tiles, those that
TRET gave back and slots with no read left become free under a new generation, and other slots lose the reads the gang has
recorded. The commit step of a gang whose members all wait with nothing outstanding (R240, R368 to R370): every member
enters its post-commit region with S past its COMMIT, what the members held waits for the scheduler in the order of R370,
each published extent of the write set is flipped, and each buffer touched has one version more; no dirty line of the members'
caches belongs to a page that is withdrawn. The model's are: a tile that was returned and then sealed becomes free (assumption 44), and
the list of the held effects and their order within a kind (assumption 66). -/
def Obligations.Commits : Prop :=
  (∀ (x : Slot) (id : Nat) (ds : List Decr), id ≠ 0 →
      let n := (ds.filter (fun d => d.core == x.core && d.unit == x.unit && d.gen == x.gen)).length
      let y := x.commit id ds
      (x.gang = id → x.st = .opened → y.st = .free ∧ y.gen = (x.gen + 1) % 65536 ∧ y.bytes = [])
      ∧ (x.gang = id → x.st = .pending → x.give = true → y.st = .free ∧ y.gen = (x.gen + 1) % 65536 ∧ y.bytes = [])
      ∧ (x.gang = id → x.st = .pending → x.give = false → n < x.count →
        y.st = .sealed ∧ y.count = x.count - n ∧ y.bytes = x.bytes ∧ y.gen = x.gen)
      ∧ (x.gang ≠ id → n = 0 → y = x)
      ∧ (x.gang ≠ id → 0 < n → n < x.count → y = { x with count := x.count - n })
      ∧ (x.gang ≠ id → 0 < n → n = x.count → y.st = .free ∧ y.gen = (x.gen + 1) % 65536 ∧ y.bytes = []))
  ∧ (∀ (s : State) (id : Nat) (g : Gang), s.shape = true → s.upsets = [] → s.gang id = some g → id ≠ 0 → g.id = id → g.committed = false →
      (∀ m ∈ g.members, m.core < 128 ∧ s.memberReady m.core = true ∧ s.drains m.core) → (g.members.map (·.core)).Nodup →
      (g.wset.map (fun w => (w.buf, w.ext))).Nodup → s.caissonFails [] (s.gangDecs g) = none →
      ∃ t, exec (.commitStep id) s = .next t
        ∧ (∀ m ∈ g.members, let x := s.strand m.core; let y := t.strand m.core
          y.commit = .done ∧ y.commitAt = s.now ∧ y.held = [] ∧ y.heldAt = [] ∧ y.decs = [] ∧ y.regs = x.regs
          ∧ y.es = if x.halted then x.es else x.es.step s.now)
        ∧ t.sched.fx = s.sched.fx ++ s.heldOf g
        ∧ (∃ g', t.gang id = some g' ∧ g'.committed = true ∧ g'.wset = [] ∧ g'.members = g.members)
        ∧ (∀ n, (t.cluster n).parts = (s.cluster n).parts.map (fun p =>
          { p with slots := p.slots.map (fun x => x.commit id ((s.gangDecs g).map Prod.snd)) }))
        ∧ (∀ h b, (s.ctx g.task.ctx).buf h = some b → ∃ b', (t.ctx g.task.ctx).buf h = some b'
          ∧ b'.version = b.version + (if g.wset.any (fun w => w.buf == h) then 1 else 0)
          ∧ ∀ e, e < b.sel.length → lget b'.sel e false = (lget b.sel e false != inWset (some g) h e)))

/-- The halt bundle of a strand whose gang has committed and that has nothing left retires (R187, R371): the context is
free, its allotment zero, and the gang ends with its last member. WATCHDOG is raised once the stall count reaches the limit
(R386), POSTCOMMIT_LONG 512 cycles after the commit step (R370). -/
def Obligations.HaltsAndLimits : Prop :=
  (∀ (s : State) (k : Nat) (g : Gang), s.shape = true → k < 128 → (s.core k).inPar = false → s.bundleReady k = true →
      let id := (s.core k).ord.gang
      id ≠ 0 → s.gang id = some g →
      ∃ t, exec (.haltBundleRetire k) s = .next t ∧ (t.core k).ord = {} ∧ (t.core k).freeSince = s.now
        ∧ (∀ o, mget (t.core k).spad o = if o < (s.core k).ord.allot then 0#8 else mget (s.core k).spad o)
        ∧ ((∀ m ∈ g.members, m.core ≠ k → m.ended = true) → t.gang id = none)
        ∧ (∀ m ∈ g.members, m.core ≠ k → m.ended = false →
          ∃ g', t.gang id = some g' ∧ ∀ m' ∈ g'.members, m'.core = k → m'.ended = true))
  ∧ (∀ (s : State) (k : Nat), (s.strand k).live = true →
      ((s.core k).inPar = false → (s.strand k).stopped = false → (s.strand k).commit ≠ .done →
        s.err.wdog ≤ (s.strand k).stall →
        exec (.watchdog k) s = .next (takeFault
          { code := .watchdog, text := (s.strand k).es.pc, data := (s.strand k).stall } { s with cur := k }))
      ∧ ((s.strand k).stall < s.err.wdog → exec (.watchdog k) s = .next s)
      ∧ ((s.strand k).commit = .done → (s.strand k).commitAt + 512 ≤ s.now →
        exec (.postcommitLong k) s = .next (takeFault
          { code := .postcommitLong, text := (s.strand k).es.pc } { s with cur := k }))
      ∧ (s.now < (s.strand k).commitAt + 512 → exec (.postcommitLong k) s = .next s))

/-- A token-tracked store performs in the order of its engine and class (R110, R147, R229): its bytes are written, those of
a scratchpad under the bits that take part (R167), no byte elsewhere changes but at homes what the caches have written back,
it leaves the list, and its token counts one less. Bytes for a tile that is no longer open to the gang raise PERMISSION
(R207). The tiles' cores are not gated, and what a load of device memory then finds is said where its page is not withdrawn. -/
def Obligations.StoresPerform : Prop :=
  ∀ (s : State) (k i : Nat) (p : PStore), s.shape = true → s.memWf = true → s.upsets = [] → k < 128 →
    (s.strand k).shape = true → (s.strand k).psts[i]? = some p →
    ((s.strand k).storeBehind i p = true → exec (.storePerformed k i) s = .next s)
    ∧ ((s.strand k).storeBehind i p = false → p.writes.all (s.storeOk (s.strand k).gang) = false →
      exec (.storePerformed k i) s = .next (takeFault
        { code := .permission, engine := engNo p.eng, text := p.text, precise := false } { s with cur := k }))
    ∧ ((s.strand k).storeBehind i p = false → p.writes.all (s.storeOk (s.strand k).gang) = true →
      (∀ x ∈ p.part, ∃ c o, x.1 = .spad c o) → (p.writes.map Prod.fst).Nodup →
      (∀ c o b, (.tile c o, b) ∈ p.writes → (s.core c).gated = false) → ∃ t, exec (.storePerformed k i) s = .next t
        ∧ (t.strand k).psts = (s.strand k).psts.eraseIdx i
        ∧ (∀ w, p.tok = some w → (t.strand k).tokCount w = (s.strand k).tokCount w - 1)
        ∧ (∀ q, (∀ a, q ≠ .mem a) → q ∉ p.writes.map Prod.fst → t.byteAt q = s.byteAt q)
        ∧ (∀ a, mget t.home a = mget s.home a ∨ (.mem a, mget t.home a) ∈ p.writes
          ∨ ∃ l, (l ∈ (s.core k).l1 ∨ l ∈ (s.cluster (clusterOf k)).slice) ∧ l.key ≤ a ∧ a < l.key + 128
            ∧ l.dirty.getLsbD (a - l.key) = true ∧ mget t.home a = lineByte l.data (a - l.key))
        ∧ (∀ c o b, (.spad c o, b) ∈ p.writes → c < 128 → (t.byteAt (.spad c o)).toNat
          = mix (s.byteAt (.spad c o)).toNat b.toNat (((p.part.find? (fun x => x.1 == .spad c o)).map Prod.snd).getD 255))
        ∧ ∀ x b, (.mem x, b) ∈ p.writes → s.poisonedPa x = false → t.seen k x = b)

/-- Where a fault record goes and what it says (R384, Table 18.4): slot SEQ of the context's fault area. Taking a fault in
an ordinary strand before its commit (R379, R380, Table 18.2): nothing of the gang remains, the message is sent or pends,
and the fence follows the code: the context; for an error of the core's own stores the core, the task being queued again;
for one of memory the page and the context; for one of the Girder the Girder; for a first mismatch nothing, the task being
launched again on its core (R390). A fault area in a withdrawn page takes no record (R381). That the re-queued record holds
no mismatch and no core is the model's (assumptions 51 and 112). -/
def Obligations.FaultsTaken : Prop :=
  (∀ (s : State) (k : Nat) (x : Strand) (relaunch : Bool) (f : FInfo), s.shape = true → x.task.ctx < 1024 →
      let c := s.ctx x.task.ctx
      let at' := c.faultBase + 64 * (c.seq % 2 ^ c.falog)
      let t := s.faultRecord k x false relaunch f
      (s.poisonedPa at' = false → mnat t.home at' 1 = f.code.num ∧ mnat t.home (at' + 1) 1 = f.cause % 256
      ∧ mnat t.home (at' + 2) 1 = b2n (f.precise && !f.code.imprecise) + 2 * b2n f.rewritten + 4 * b2n (x.commit == .done)
        + 16 * b2n relaunch
      ∧ mnat t.home (at' + 3) 1 = f.engine % 256
      ∧ mnat t.home (at' + 4) 2 = x.task.ctx ∧ mnat t.home (at' + 6) 1 = k % 256 ∧ mnat t.home (at' + 7) 1 = x.member % 256
      ∧ mnat t.home (at' + 8) 4 = f.text % 2 ^ 32 ∧ mnat t.home (at' + 12) 4 = x.image % 2 ^ 32
      ∧ mnat t.home (at' + 16) 8 = f.addr % 2 ^ 64 ∧ mnat t.home (at' + 24) 8 = f.data % 2 ^ 64
      ∧ mnat t.home (at' + 32) 1 = f.kslot % 256 ∧ mnat t.home (at' + 33) 1 = f.kpos % 256
      ∧ mnat t.home (at' + 34) 1 = f.lane % 256 ∧ mnat t.home (at' + 35) 1 = f.cstep % 256
      ∧ mnat t.home (at' + 36) 4 = (f.aux.getD (if x.task.src = 2 ∨ x.task.src = 3 then x.task.frame else 0)) % 2 ^ 32
      ∧ mnat t.home (at' + 40) 8 = s.devTime % 2 ^ 64
      ∧ mnat t.home (at' + 48) 4 = c.seq % 2 ^ 32 ∧ mnat t.home (at' + 52) 1 = f.ckind % 256
      ∧ mnat t.home (at' + 53) 1 = f.cqueue % 256 ∧ mnat t.home (at' + 54) 10 = 0
      ∧ (∀ a, a < at' ∨ at' + 64 ≤ a → mget t.home a = mget s.home a))
      ∧ (s.poisonedPa at' = true → t.home = s.home)
      ∧ (t.ctx x.task.ctx).seq = (c.seq + 1) % 2 ^ 32)
  ∧ (∀ (s : State) (f : FInfo) (g : Gang), s.shape = true → s.cur < 128 → (s.core s.cur).inPar = false →
      s.st.commit ≠ .done → s.st.gang ≠ 0 → s.gang s.st.gang = some g → g.task.service = false → s.st.task.ctx < 1024 →
      (∃ m ∈ g.members, m.core = s.cur ∧ m.ended = false) →
      let c := s.st.task.ctx
      let t := takeFault f s
      let v := vecOf (s.ctx c).owner (s.ctx c).vec
      t.gang s.st.gang = none ∧ (t.core s.cur).ord = {} ∧ (v ∈ t.host.msixSent ∨ v ∈ t.host.msixPend)
      ∧ (f.code ≠ .checkerMismatch → f.code ≠ .memoryUe → f.code ≠ .translationPoison →
        (t.ctx c).fenced = true ∧ (t.ctx c).seq = ((s.ctx c).seq + 1) % 2 ^ 32)
      ∧ (f.code = .memoryUe → f.cause = 1 ∨ f.cause = 2 →
        (t.core s.cur).fenced = true ∧ (t.ctx c).fenced = (s.ctx c).fenced ∧ { g.task with onCore := none, mism := 0 } ∈ t.sched.recs)
      ∧ (f.code = .memoryUe → f.cause = 4 → (t.ctx c).fenced = true ∧ f.addr / 4096 ∈ t.err.poisoned)
      ∧ (f.code = .memoryUe → f.cause = 6 → (t.girder (clusterOf s.cur)).fenced = true)
      ∧ (f.code = .translationPoison → (t.ctx c).fenced = true)
      ∧ (f.code = .checkerMismatch → s.st.task.mism = 0 → (t.core s.cur).fenced = (s.core s.cur).fenced
        ∧ { g.task with mism := g.task.mism + 1, onCore := some (s.st.member, s.cur) } ∈ t.sched.recs))

/-! ## The vector unit -/

/-- What a word reads (R99, R101, R102, R104): a register with no result in flight that its engine may still miss reads as
it stands, and s0 as 0; while one result is in flight, a scalar register is its old or its new value and so is each lane of
a vector register. Vector sources (R60, R61, R139): a register, zero, or one entry of S→V, converted between the queue's
types, in every lane, which leaves the queue. That a result of another engine is surely seen after 64 cycles, and through
any queue, token or event that joins the engines, is the model's (assumptions 33 and 117). -/
def Obligations.OperandReads : Prop :=
  (∀ (s : State) (n : Nat),
      let quiet (d : RetDst) : Prop := ∀ r ∈ s.st.rets, r.dst = d → r.src ≠ []
      let landed (u : HzUnit) (e : Eng) : Prop := ∀ h ∈ s.st.hz, h.unit = u →
        h.eng = e ∧ h.due ≤ s.now ∨ h.eng ≠ e ∧ (e ∈ h.known ∨ h.far ≤ s.now)
      s.rdS 0 = 0#64
      ∧ (landed (.s n) .s → quiet (.s n) → s.rdS n = s.getS n)
      ∧ (landed (.v n) .v → quiet (.v n) → s.rdV n = lget s.st.regs.v n 0#1024)
      ∧ (landed (.t n) .v → quiet (.t n) → s.rdT n = (lget s.st.regs.t n 0#65536).toNat)
      ∧ (landed (.t n) .m → quiet (.t n) → s.rdTM n = (lget s.st.regs.t n 0#65536).toNat)
      ∧ (∀ h, hazards s.st (.s n) = [h] → h.width = 64 → h.mask = ones 64 → quiet (.s n) →
        s.rdS n = s.getS n ∨ s.rdS n = if n = 0 then 0#64 else BitVec.ofNat 64 h.old)
      ∧ (∀ h w i, hazards s.st (.v n) = [h] → h.width = w → w = 8 ∨ w = 16 ∨ w = 32 → h.mask = ones 1024 → quiet (.v n) →
        i < 1024 / w → lane w i (s.rdV n).toNat = lane w i (lget s.st.regs.v n 0#1024).toNat
          ∨ lane w i (s.rdV n).toNat = lane w i h.old))
  ∧ (∀ (s : State) (n w act : Nat), s.present = true →
      s.source (.reg n) 1 w act = .ok ((s.rdV n).toNat, s)
      ∧ s.source .zero 1 w act = .ok (0, s)
      ∧ (∀ x l, w = 8 ∨ w = 16 ∨ w = 32 → s.queue 0 = some x :: l →
        let r := qConvert (lget s.st.qs.src 0 15) (lget s.st.qs.snk 0 15) x
        ∃ y t, s.source .q 1 w act = .ok (y, t) ∧ (∀ j, j < 1024 / w → lane w j y = r.1.toNat % 2 ^ w)
          ∧ t.queue 0 = l ∧ t.st.flags = s.st.flags ||| BitVec.ofNat 6 r.2 ∧ t.st.regs = s.st.regs))

/-- Every word of V on lanes issues from any state in which its operands are registers or zero (laneReady): VADD, VSUB,
VMUL, VFMA, VFNMA, VMIN, VMAX, VUN, VLOG, VSH, VADDI, VMULW, VADDW, VNARR, VCVT, VRINT, VEXP2F, VSCALEB, VRCP, VRSQ, VCMP,
VSEL, VQUANT, VDEQ, VRED, VTOPK, VPERM, VSHUF, VBCAST, VIOTA, VSLIDE, VTR, VTW and VQPUSH. What the words of one and of two
lane operands do under the mask (R93, R98, R155, R161), for registers and, where the source yields an operand, for every
source form and both destination forms: the active lanes take the result, the others stay, the flags of the active lanes are
set, and no other register or byte changes. VFMA and VFNMA take the destination register as their third operand (R155); VSEL
takes each lane from one of its operands by the mask and writes every lane, in a register or a port (R96). That the flags
are set when the word issues, and not later within its bound, is the model's (assumption 116), and so is that VSEL reads
every element of its ports (assumption 26). -/
def Obligations.LaneResults : Prop :=
  (∀ (s : State) (i : Instr), s.able → s.st.vregs ≤ 32 → laneWord i = true → s.laneReady i →
      issues i .v s (fun t => onlyStrand s t))
  ∧ (∀ (s : State) (i : Instr) (n wa wd cnt : Nat) (a : VSrc) (f : Nat → Nat × Nat),
      laneOp1 i = some (.reg n, a, wa, wd, cnt, f) → s.able → s.st.vregs ≤ 32 → s.laneReady i →
      let x := s.regVal (wa * cnt / 1024) a
      issues i .v s (fun t => (∀ j, j < cnt → groupLane t n wd j =
        if s.mask.getLsbD (j * (min wa wd / 8)) then (f (lane wa j x)).1 % 2 ^ wd else groupLane s n wd j)
        ∧ otherV s t n (wd * cnt / 1024) ∧ onlyStrand s t))
  ∧ (∀ (s : State) (i : Instr) (n wa wb wd cnt : Nat) (a b : VSrc) (f : Nat → Nat → Nat × Nat),
      laneOp2 i = some (.reg n, a, b, wa, wb, wd, cnt, f) → s.able → s.st.vregs ≤ 32 → s.laneReady i →
      let x := s.regVal (wa * cnt / 1024) a
      let y := s.regVal (wb * cnt / 1024) b
      issues i .v s (fun t => (∀ j, j < cnt → groupLane t n wd j =
        if s.mask.getLsbD (j * (min (min wa wb) wd / 8)) then (f (lane wa j x) (lane wb j y)).1 % 2 ^ wd
        else groupLane s n wd j) ∧ otherV s t n (wd * cnt / 1024) ∧ onlyStrand s t))
  ∧ (∀ (s s1 : State) (i : Instr) (d : VDst) (a : VSrc) (wa wd cnt x : Nat) (f : Nat → Nat × Nat),
      laneOp1 i = some (d, a, wa, wd, cnt, f) → s.present = true → s.st.commit ≠ .done →
      let gd := wd * cnt / 1024
      let act := s.active (min wa wd / 8) cnt
      let on (j : Nat) : Bool := s.mask.getLsbD (j * (min wa wd / 8))
      let r (j : Nat) := f (lane wa j x)
      s.dstOk d gd = .ok () → s.srcOk a (wa * cnt / 1024) = .ok () →
      s.source a (wa * cnt / 1024) wa (laneBits wa act) = .ok (x, s1) → s1.upsets = [] →
      (∀ n, d = .reg n → n < 32 → issues i .v s (fun t =>
        (∀ j, j < cnt → groupLane t n wd j = if on j then (r j).1 % 2 ^ wd else groupLane s n wd j)
        ∧ otherV s t n gd ∧ flagsOr s1 t cnt on (fun j => (r j).2) ∧ sameBytes s1 t))
      ∧ (∀ p s2, d = .port p → s1.portPutGroup p (laneBits wd act)
          (ofLanes wd ((List.range cnt).map (fun j => (r j).1))) gd = .ok s2 →
        issues i .v s (fun t => portDone s2 t ∧ flagsOr s2 t cnt on (fun j => (r j).2))))
  ∧ (∀ (s s1 s2 : State) (i : Instr) (d : VDst) (a b : VSrc) (wa wb wd cnt x y : Nat) (f : Nat → Nat → Nat × Nat),
      laneOp2 i = some (d, a, b, wa, wb, wd, cnt, f) → s.present = true → s.st.commit ≠ .done →
      let gd := wd * cnt / 1024
      let act := s.active (min (min wa wb) wd / 8) cnt
      let on (j : Nat) : Bool := s.mask.getLsbD (j * (min (min wa wb) wd / 8))
      let r (j : Nat) := f (lane wa j x) (lane wb j y)
      s.dstOk d gd = .ok () → s.srcOk a (wa * cnt / 1024) = .ok () → s.srcOk b (wb * cnt / 1024) = .ok () →
      s.source a (wa * cnt / 1024) wa (laneBits wa act) = .ok (x, s1) →
      s1.source b (wb * cnt / 1024) wb (laneBits wb act) = .ok (y, s2) → s2.upsets = [] →
      (∀ n, d = .reg n → n < 32 → issues i .v s (fun t =>
        (∀ j, j < cnt → groupLane t n wd j = if on j then (r j).1 % 2 ^ wd else groupLane s n wd j)
        ∧ otherV s t n gd ∧ flagsOr s2 t cnt on (fun j => (r j).2) ∧ sameBytes s2 t))
      ∧ (∀ p s3, d = .port p → s2.portPutGroup p (laneBits wd act)
          (ofLanes wd ((List.range cnt).map (fun j => (r j).1))) gd = .ok s3 →
        issues i .v s (fun t => portDone s3 t ∧ flagsOr s3 t cnt on (fun j => (r j).2))))
  ∧ (∀ (s s1 s2 : State) (n : Nat) (a b : VSrc) (ty : VTy) (sg u x y : Nat), s.present = true → s.st.commit ≠ .done →
      n < 32 → s2.upsets = [] → s.regOk n 1 = .ok () → s.srcOk a 1 = .ok () → s.srcOk b 1 = .ok () →
      let w := ty.bits
      let on (j : Nat) : Bool := s.mask.getLsbD (j * (w / 8))
      let r (f : VArith) (j : Nat) :=
        arithLane f (ty.nty (u == 1)) (sg == 1) (lane w j x) (lane w j y) (lane w j (s2.rdV n).toNat)
      let fma (i : Instr) (f : VArith) := issues i .v s (fun t =>
        (∀ j, j < 1024 / w → groupLane t n w j = if on j then (r f j).1 % 2 ^ w else groupLane s n w j)
        ∧ otherV s t n 1 ∧ flagsOr s2 t (1024 / w) on (fun j => (r f j).2) ∧ sameBytes s2 t)
      (s.source a 1 w (laneBits w (s.active (w / 8) (1024 / w))) = .ok (x, s1) →
        s1.source b 1 w (laneBits w (s.active (w / 8) (1024 / w))) = .ok (y, s2) →
        fma (.vfma (.reg n) a b ty sg u) .fma ∧ fma (.vfnma (.reg n) a b ty sg u) .fnma)
      ∧ (s.source a 1 w (allBits 1) = .ok (x, s1) → s1.source b 1 w (allBits 1) = .ok (y, s2) →
        issues (.vsel (.reg n) a b ty) .v s (fun t =>
          (∀ j, j < 1024 / w → groupLane t n w j = if on j then lane w j x else lane w j y)
          ∧ otherV s t n 1 ∧ t.st.flags = s2.st.flags ∧ sameBytes s2 t)))
  ∧ (∀ (s s1 s2 s3 : State) (p : Nat) (a b : VSrc) (ty : VTy) (x y : Nat), s.present = true → s.st.commit ≠ .done →
      s2.upsets = [] → s.srcOk a 1 = .ok () → s.srcOk b 1 = .ok () →
      let w := ty.bits
      let r (j : Nat) := if s.mask.getLsbD (j * (w / 8)) then lane w j x else lane w j y
      s.source a 1 w (allBits 1) = .ok (x, s1) → s1.source b 1 w (allBits 1) = .ok (y, s2) →
      s2.portPutGroup p (allBits 1) (ofLanes w ((List.range (1024 / w)).map r)) 1 = .ok s3 →
      issues (.vsel (.port p) a b ty) .v s (fun t => portDone s3 t ∧ t.st.flags = s3.st.flags))

/-- What integer lanes compute (R94, R154 to R158, R162 to R165): the exact result wrapped, or with SAT clamped under the
flag SAT; the widened product, the widened sum and the narrowed value; the relations; negation, magnitude and bit counts;
bits; and shifts by any count. -/
def Obligations.IntegerLanes : Prop :=
  (∀ (w a b d : Nat) (sg : Bool) (f : VArith), w = 8 ∨ w = 16 ∨ w = 32 → a < 2 ^ w → b < 2 ^ w →
    let x := intOf w sg a
    let z := intOf w sg b
    let y := f.int x z (intOf w sg d)
    let lo (w : Nat) : Int := if sg then -(2 ^ (w - 1)) else 0
    let hi (w : Nat) : Int := if sg then 2 ^ (w - 1) - 1 else 2 ^ w - 1
    let t := NTy.int w sg
    let wraps (w : Nat) (r : Nat × Nat) (y : Int) : Prop := r.1 < 2 ^ w ∧ (intOf w sg r.1 - y) % 2 ^ w = 0 ∧ r.2 = 0
    let clamps (w : Nat) (r : Nat × Nat) (y : Int) : Prop := r.1 < 2 ^ w ∧ intOf w sg r.1 = max (lo w) (min (hi w) y)
      ∧ (r.2 = fSAT ∨ r.2 = 0) ∧ (r.2 = fSAT ↔ y < lo w ∨ hi w < y)
    wraps w (arithLane f t false a b d) y ∧ clamps w (arithLane f t true a b d) y
    ∧ (w ≠ 32 → intOf 32 sg (mulwLane t (.int 32 sg) a b).1 = x * z ∧ (mulwLane t (.int 32 sg) a b).2 = 0
      ∧ ∀ c, c < 2 ^ 32 → let y := intOf 32 sg c + z
        wraps 32 (addwLane t (.int 32 sg) false c b) y ∧ clamps 32 (addwLane t (.int 32 sg) true c b) y
        ∧ narrLane t (.int 32 sg) false c = (c % 2 ^ w, 0) ∧ clamps w (narrLane t (.int 32 sg) true c) (intOf 32 sg c))
    ∧ intOf w sg (minMaxLane t false a b) = min x z ∧ intOf w sg (minMaxLane t true a b) = max x z
    ∧ relLane .eq t a b = decide (x = z) ∧ relLane .ne t a b = decide (x ≠ z) ∧ relLane .lt t a b = decide (x < z)
    ∧ relLane .ge t a b = decide (z ≤ x) ∧ relLane .le t a b = decide (x ≤ z) ∧ relLane .gt t a b = decide (z < x)
    ∧ shLane .shl w a b = (if b < w then a * 2 ^ b % 2 ^ w else 0) ∧ shLane .shr w a b = (if b < w then a / 2 ^ b else 0)
    ∧ sextInt w (shLane .sra w a b) = sextInt w a / 2 ^ b
    ∧ (∀ j, j < w → (logLane .and w a b).testBit j = (a.testBit j && b.testBit j)
      ∧ (logLane .or w a b).testBit j = (a.testBit j || b.testBit j)
      ∧ (logLane .xor w a b).testBit j = (a.testBit j != b.testBit j)
      ∧ (logLane .andn w a b).testBit j = (a.testBit j && !b.testBit j)
      ∧ (unLane .not t a).testBit j = !a.testBit j)
    ∧ wraps w (unLane .neg (.int w sg) a, 0) (-x)
    ∧ sextInt w (unLane .abs t a) = (if a = 2 ^ (w - 1) then -(2 ^ (w - 1) : Int) else |sextInt w a|)
    ∧ (∀ n, n ≤ w → (unLane .clz t a = n ↔ a < 2 ^ (w - n) ∧ (n < w → 2 ^ (w - n - 1) ≤ a)))
    ∧ unLane .popc t a = (List.range w).countP (fun j => a.testBit j))
  ∧ (∀ (ws wd a : Nat) (ss sd : Bool) (m : Rnd), ws = 8 ∨ ws = 16 ∨ ws = 32 → wd = 8 ∨ wd = 16 ∨ wd = 32 → a < 2 ^ ws →
    (cvtLane (.int ws ss) (.int wd sd) m false a).1 < 2 ^ wd ∧ (cvtLane (.int ws ss) (.int wd sd) m false a).2 = 0
    ∧ (intOf wd sd (cvtLane (.int ws ss) (.int wd sd) m false a).1 - intOf ws ss a) % 2 ^ wd = 0
    ∧ roundsTo (.int wd sd) (decide (intOf ws ss a < 0)) (intOf ws ss a) m false (cvtLane (.int ws ss) (.int wd sd) m true a))

/-- What floating-point lanes compute (R94, R154 to R156, R162 to R165, R169 to R173), for fp32, bf16, fp16, e4m3 and e5m2:
the exact sum, difference, product or fused product of finite operands rounded once; a NaN gives the canonical NaN, and an
invalid operation that NaN with INV; comparison, the lesser and the greater, where -0 orders below +0; the sign words;
widening and narrowing; rounding to an integer; the reciprocals, rounded, and of fp32 within one unit in the last place; the
special cases of VEXP2F, and otherwise a value within one unit in the last place of what the model computes with 320
fraction bits (assumption 21); VSCALEB; and the sum, maximum and minimum of lanes. -/
def Obligations.FloatLanes : Prop :=
  (∀ (t : NTy) (sat : Bool) (a b d : Nat) (an bn dn : Bool), t.isFloat = true → a < 2 ^ t.width → b < 2 ^ t.width → d < 2 ^ t.width →
    let x := t.rat a
    let y := t.rat b
    let z := t.rat d
    let nan : Nat × Nat := (t.canonNaN, 0)
    let inv : Nat × Nat := (t.canonNaN, fINV)
    let r (f : VArith) : Nat × Nat := arithLane f t sat a b d
    ((t.value a).isNaN = true ∨ (t.value b).isNaN = true →
      (∀ f, r f = nan) ∧ (∀ o, relLane o t a b = (o == .ne)) ∧ (∀ mx, minMaxLane t mx a b = t.canonNaN)
      ∧ mulwLane t .fp32 a b = (NTy.fp32.canonNaN, 0))
    ∧ ((t.value d).isNaN = true → r .fma = nan ∧ r .fnma = nan)
    ∧ ((t.value a).isFin an → (t.value b).isFin bn →
      roundsTo t (sumSign (x + y) (an && bn)) (x + y) .rne sat (r .add)
      ∧ roundsTo t (sumSign (x - y) (an && !bn)) (x - y) .rne sat (r .sub)
      ∧ roundsTo t (an != bn) (x * y) .rne sat (r .mul)
      ∧ roundsTo .fp32 (an != bn) (x * y) .rne false (mulwLane t .fp32 a b)
      ∧ ((t.value d).isFin dn →
        roundsTo t (sumSign (x * y + z) ((an != bn) && dn)) (x * y + z) .rne sat (r .fma)
        ∧ roundsTo t (sumSign (z - x * y) (!(an != bn) && dn)) (z - x * y) .rne sat (r .fnma))
      ∧ (t.value d = .inf dn → isInf t dn (r .fma) ∧ isInf t dn (r .fnma))
      ∧ relLane .eq t a b = decide (x = y) ∧ relLane .ne t a b = decide (x ≠ y) ∧ relLane .lt t a b = decide (x < y)
      ∧ relLane .ge t a b = decide (y ≤ x) ∧ relLane .le t a b = decide (x ≤ y) ∧ relLane .gt t a b = decide (y < x))
    ∧ (t.value a = .inf an → (t.value b = .inf an ∨ ∃ n, (t.value b).isFin n) → isInf t an (r .add))
    ∧ (t.value b = .inf bn → (∃ n, (t.value a).isFin n) → isInf t bn (r .add) ∧ isInf t (!bn) (r .sub))
    ∧ (t.value a = .inf an → (t.value b = .inf (!an) ∨ ∃ n, (t.value b).isFin n) → isInf t an (r .sub))
    ∧ (t.value a = .inf an → t.value b = .inf (!an) → r .add = inv)
    ∧ (t.value a = .inf an → t.value b = .inf an → r .sub = inv)
    ∧ (t.value a = .inf an ∧ t.value b = .inf bn ∨ t.value a = .inf an ∧ (t.value b).isFin bn ∧ y ≠ 0
        ∨ t.value b = .inf bn ∧ (t.value a).isFin an ∧ x ≠ 0 →
      isInf t (an != bn) (r .mul) ∧ isInf .fp32 (an != bn) (mulwLane t .fp32 a b)
      ∧ (t.value d = .inf (an != bn) ∨ (∃ n, (t.value d).isFin n) → isInf t (an != bn) (r .fma))
      ∧ (t.value d = .inf (!(an != bn)) ∨ (∃ n, (t.value d).isFin n) → isInf t (!(an != bn)) (r .fnma))
      ∧ (t.value d = .inf (!(an != bn)) → r .fma = inv) ∧ (t.value d = .inf (an != bn) → r .fnma = inv))
    ∧ (t.value a = .inf an ∧ (t.value b).isZero = true ∨ t.value b = .inf bn ∧ (t.value a).isZero = true →
      r .mul = inv ∧ mulwLane t .fp32 a b = (NTy.fp32.canonNaN, fINV)
      ∧ ((t.value d).isNaN = false → r .fma = inv ∧ r .fnma = inv))
    ∧ ((t.value a).isNaN = false → (t.value b).isNaN = false →
      (t.value a = .inf an → ∀ o, relLane o t a b = (match o with
        | .eq => decide (t.value b = .inf an)
        | .ne => decide (t.value b ≠ .inf an)
        | .lt => an && decide (t.value b ≠ .inf an)
        | .ge => !an || decide (t.value b = .inf an)
        | .le => an || decide (t.value b = .inf an)
        | .gt => !an && decide (t.value b ≠ .inf an)))
      ∧ (t.value b = .inf bn → (∃ n, (t.value a).isFin n) → ∀ o, relLane o t a b = (match o with
        | .eq => false
        | .ne => true
        | .lt => !bn
        | .le => !bn
        | .ge => bn
        | .gt => bn))
      ∧ (let lo := minMaxLane t false a b
        (lo = a ∨ lo = b) ∧ ¬ below t a lo ∧ ¬ below t b lo)
      ∧ (let hi := minMaxLane t true a b
        (hi = a ∨ hi = b) ∧ ¬ below t hi a ∧ ¬ below t hi b))
    ∧ ((t.value a).isNaN = true → unLane .neg t a = t.canonNaN ∧ unLane .abs t a = t.canonNaN)
    ∧ ((t.value a).isNaN = false → unLane .abs t a = a % 2 ^ (t.width - 1)
      ∧ unLane .neg t a = (a + 2 ^ (t.width - 1)) % 2 ^ t.width)
    ∧ (∀ m, ((t.value a).isNaN = true → rintLane t m a = t.canonNaN) ∧ (t.value a = .inf an → rintLane t m a = a)
      ∧ ((t.value a).isFin an → (t.value (rintLane t m a)).isFin an ∧ ∃ i : Int, t.rat (rintLane t m a) = i
        ∧ (m = .rtz → i = if x < 0 then ⌈x⌉ else ⌊x⌋) ∧ (m = .rdn → i = ⌊x⌋) ∧ (m = .rup → i = ⌈x⌉)
        ∧ (m = .rne → |x - i| ≤ 1 / 2 ∧ (|x - i| = 1 / 2 → i % 2 = 0)))))
  ∧ (∀ (t : NTy) (sat : Bool) (a b : Nat) (an bn : Bool), t.isFloat = true → a < 2 ^ 32 → b < 2 ^ t.width →
    let x := NTy.fp32.rat a
    (((NTy.fp32.value a).isNaN = true ∨ (t.value b).isNaN = true) → addwLane t .fp32 sat a b = (NTy.fp32.canonNaN, 0))
    ∧ ((NTy.fp32.value a).isFin an → (t.value b).isFin bn →
      roundsTo .fp32 (sumSign (x + t.rat b) (an && bn)) (x + t.rat b) .rne false (addwLane t .fp32 sat a b))
    ∧ (NTy.fp32.value a = .inf an → t.value b = .inf (!an) → addwLane t .fp32 sat a b = (NTy.fp32.canonNaN, fINV))
    ∧ (NTy.fp32.value a = .inf an → (t.value b = .inf an ∨ ∃ n, (t.value b).isFin n) → isInf .fp32 an (addwLane t .fp32 sat a b))
    ∧ (t.value b = .inf bn → (∃ n, (NTy.fp32.value a).isFin n) → isInf .fp32 bn (addwLane t .fp32 sat a b))
    ∧ narrLane t .fp32 sat a = convert a .fp32 t .rne sat
    ∧ (∀ st dt m, st.isFloat = true ∨ dt.isFloat = true → cvtLane st dt m sat a = convert a st dt m sat))
  ∧ (∀ (t : NTy) (a : Nat) (n : Bool), t = .fp32 ∨ t = .bf16 ∨ t = .fp16 → a < 2 ^ t.width →
    let x := t.rat a
    let rcp := rcpLane t a
    let rsq := rsqLane t a
    let u := ulp32 rcp.1
    let v := ulp32 rsq.1
    ((t.value a).isNaN = true → rcp = (t.canonNaN, 0) ∧ rsq = (t.canonNaN, 0))
    ∧ (t.value a = .inf n → rcp = (if n then 2 ^ (t.width - 1) else 0, 0) ∧ rsq = if n then (t.canonNaN, fINV) else (0, 0))
    ∧ ((t.value a).isFin n → x = 0 → t.value rcp.1 = .inf n ∧ rcp.2 = fDZE ∧ t.value rsq.1 = .inf n ∧ rsq.2 = fDZE)
    ∧ (x < 0 → rsq = (t.canonNaN, fINV))
    ∧ ((t.value a).isFin n → x ≠ 0 →
      (t ≠ .fp32 → roundsTo t n (1 / x) .rne false rcp)
      ∧ (t = .fp32 → |1 / x| ≤ t.rat t.maxMag → (t.value rcp.1).isFin n ∧ |t.rat rcp.1 - 1 / x| < u
        ∧ rcp.2 = if t.rat rcp.1 = 1 / x then 0 else if t.rat rcp.1 ≠ 0 ∧ |t.rat rcp.1| < (2 : ℚ) ^ (-126 : Int) then fINX + fUNF else fINX)
      ∧ (t = .fp32 → t.rat t.maxMag < |1 / x| → t.value rcp.1 = .inf n ∧ rcp.2 = fOVF + fINX))
    ∧ (0 < x → 0 < t.rat rsq.1 ∧ rsq.2 = (if t.rat rsq.1 ^ 2 * x = 1 then 0 else fINX)
      ∧ (t ≠ .fp32 → ((t.rat rsq.1 + t.rat (rsq.1 - 1)) / 2) ^ 2 * x ≤ 1 ∧ 1 ≤ ((t.rat rsq.1 + t.rat (rsq.1 + 1)) / 2) ^ 2 * x)
      ∧ (t = .fp32 → v < t.rat rsq.1 ∧ (t.rat rsq.1 - v) ^ 2 * x < 1 ∧ 1 < (t.rat rsq.1 + v) ^ 2 * x)))
  ∧ (∀ (a b : Nat) (an bn : Bool), a < 2 ^ 32 → b < 2 ^ 32 →
    let t := NTy.fp32
    let x := t.rat a
    let y := t.rat b
    let r := scalebLane a b
    let e := exp2Lane a
    ((t.value a).isNaN = true ∨ (t.value b).isNaN = true → r = (t.canonNaN, 0))
    ∧ ((t.value a).isFin an → (t.value b).isFin bn →
      roundsTo t an (x * (2 : ℚ) ^ (if y < 0 then ⌈y⌉ else ⌊y⌋)) .rne false r)
    ∧ (t.value a = .inf an → (t.value b).isFin bn ∨ t.value b = .inf false → isInf t an r)
    ∧ ((t.value a).isFin an → t.value b = .inf false → if x = 0 then r = (t.canonNaN, fINV) else isInf t an r)
    ∧ ((t.value a).isFin an → t.value b = .inf true → r = (if an then 2 ^ 31 else 0, 0))
    ∧ (t.value a = .inf an → t.value b = .inf true → r = (t.canonNaN, fINV))
    ∧ ((t.value a).isNaN = true → e = (t.canonNaN, 0)) ∧ (t.value a = .inf an → e = (t.canonNaN, fINV))
    ∧ ((t.value a).isFin an → 1 / 2 < |x| → e = (t.canonNaN, fINV)) ∧ ((t.value a).isFin an → x = 0 → e = (0x3F800000, 0))
    ∧ (∀ m k, t.value a = .fin an m k → x ≠ 0 → |x| ≤ 1 / 2 → e.2 = fINX ∧ (∃ n, (t.value e.1).isFin n)
      ∧ |t.rat e.1 - (exp2Fixed an m k : ℚ) / 2 ^ 320| < ulp32 e.1))
  ∧ (∀ (t : NTy) (l : List Nat), t.isFloat = true → (∀ c ∈ l, c < 2 ^ t.width) →
    let sum := redLanes .sum t l
    let y := (l.map t.rat).sum
    ((∃ c ∈ l, (t.value c).isNaN = true) → sum = (t.canonNaN, 0) ∧ ∀ f, f ≠ .sum → redLanes f t l = (t.canonNaN, 0))
    ∧ (l ≠ [] → (∀ c ∈ l, t.has c) →
      roundsTo t (sumSign y (l.all (fun c => c.testBit (t.width - 1)))) y .rne false sum)
    ∧ ((∀ c ∈ l, (t.value c).isNaN = false) → .inf false ∈ l.map t.value → .inf true ∈ l.map t.value → sum = (t.canonNaN, fINV))
    ∧ (∀ n, (∀ c ∈ l, (t.value c).isNaN = false) → .inf n ∈ l.map t.value → .inf (!n) ∉ l.map t.value → isInf t n sum)
    ∧ ((∀ c ∈ l, (t.value c).isNaN = false) → l ≠ [] →
      (∃ c ∈ l, redLanes .max t l = (c, 0) ∧ ∀ d ∈ l, ¬ below t c d) ∧ ∃ c ∈ l, redLanes .min t l = (c, 0) ∧ ∀ d ∈ l, ¬ below t d c))
  ∧ (∀ (t : NTy) (w : Nat), redLanes .sum t [] = (0, 0) ∧ redLanes .max (.int w true) [] = (2 ^ (w - 1), 0)
    ∧ redLanes .min (.int w true) [] = (2 ^ (w - 1) - 1, 0) ∧ redLanes .max .e4m3 [] = (0xFE, 0)
    ∧ redLanes .min .e4m3 [] = (0x7E, 0)
    ∧ (t.isFloat = true → t ≠ .e4m3 → isInf t true (redLanes .max t []) ∧ isInf t false (redLanes .min t [])))

/-- The number formats (R26 to R32), rounding (R28, R34 to R38), quantization and dequantization (R39 to R41) and conversion
(R42). Every code has the value that its layout gives; an exact number is rounded as roundsTo says; a NaN gives the
canonical NaN or 0 with INV, an infinity itself, or the extreme value under INV, or of e4m3 under SAT. That a saturating
type raises SAT for every value above its greatest is the model's reading of Example 2.2 (assumption 6). -/
def Obligations.NumberFormats : Prop :=
  (NTy.fp32.layout = (8, 23, 127) ∧ NTy.bf16.layout = (8, 7, 127) ∧ NTy.fp16.layout = (5, 10, 15) ∧ NTy.e4m3.layout = (4, 3, 7)
    ∧ NTy.e5m2.layout = (5, 2, 15))
  ∧ (∀ (t : NTy) (s ex fr : Nat), t.isFloat = true → s < 2 → ex < 2 ^ t.layout.1 → fr < 2 ^ t.layout.2.1 →
    let v := t.value (s * 2 ^ (t.layout.1 + t.layout.2.1) + ex * 2 ^ t.layout.2.1 + fr)
    let special := if t = .e4m3 then ex = 15 ∧ fr = 7 else ex = 2 ^ t.layout.1 - 1
    t.width = 1 + t.layout.1 + t.layout.2.1
    ∧ (special → if fr = 0 then v = .inf (s == 1) else v.isNaN = true)
    ∧ (¬ special → v.isFin (s == 1) ∧ v.rat = (if s = 1 then -1 else 1) * (if ex = 0 then
        (fr : ℚ) / 2 ^ t.layout.2.1 * (2 : ℚ) ^ (1 - t.layout.2.2 : Int)
      else (1 + (fr : ℚ) / 2 ^ t.layout.2.1) * (2 : ℚ) ^ (ex - t.layout.2.2 : Int))))
  ∧ (∀ t : NTy, t.isFloat = true → (t.value t.canonNaN).isNaN = true ∧ t.has t.maxMag ∧ ∀ c, t.has c → t.rat c ≤ t.rat t.maxMag)
  ∧ (∀ (w c : Nat) (sg : Bool), (∃ n, ((NTy.int w sg).value c).isFin n) ∧ (NTy.int w sg).rat c = (intOf w sg c : Int))
  ∧ (∀ (k c : Nat), k < 4 → c < 16 → (∃ n, ((NTy.n4 k).value c).isFin n) ∧ (NTy.n4 k).rat c =
      if k = 0 then (sextInt 4 c : ℚ) else (if 8 ≤ c then -1 else 1) * lget (if k = 1 then [0, 1 / 2, 1, 3 / 2, 2, 3, 4, 6]
        else if k = 2 then [0, 1 / 8, 1 / 4, 1 / 2, 1, 2, 4, 8] else [0, 1, 2, 3, 4, 6, 8, 12]) (c % 8) 0)
  ∧ (∀ (t : NTy) (m : Rnd) (esat : Bool), t.known →
    (∀ n x e, roundsTo t n (FVal.fin n x e).rat m esat (rnd (.fin n x e) t m esat))
    ∧ rnd .nan t m esat = (if t.isFloat then (t.canonNaN, 0) else (0, fINV))
    ∧ (∀ n, let r := rnd (.inf n) t m esat
      if t.isFloat = false then r.2 = fINV ∧ t.has r.1 ∧ ∀ c, t.has c → if n then t.rat r.1 ≤ t.rat c else t.rat c ≤ t.rat r.1
      else if t = .e4m3 then r = (if n then 0xFE else 0x7E, fSAT) else isInf t n r))
  ∧ (∀ (t s : NTy) (c : Nat) (m : Rnd) (esat : Bool), (∃ n, (s.value c).isFin n) → s.isFloat = true →
    t = .fp32 ∨ t = .fp16 ∧ s = .e4m3 → t.rat (convert c s t m esat).1 = s.rat c ∧ (convert c s t m esat).2 = 0)
  ∧ (∀ (t : NTy) (x : FVal) (n : Bool) (sw : Nat) (esat : Bool), t.known →
    let s : ℚ := (2 : ℚ) ^ (swE sw - 127 : Int) * (1 + (swM sw : ℚ) / 64)
    quantize x t none esat = rnd x t .rne esat
    ∧ (swE sw = 0 ∨ swE sw = 255 → quantize x t (some sw) esat = (0, 0))
    ∧ (swE sw ≠ 0 → swE sw ≠ 255 → (x.isFin n → roundsTo t n (x.rat / s) .rne esat (quantize x t (some sw) esat))
      ∧ ((∀ n, ¬ x.isFin n) → quantize x t (some sw) esat = rnd x t .rne esat)))
  ∧ (∀ (t : NTy) (c : Nat) (n : Bool) (sw : Option Nat),
    let s : ℚ := match sw with
      | none => 1
      | some w => (2 : ℚ) ^ (swE w - 127 : Int) * (1 + (swM w : ℚ) / 64)
    let r := dequantize c t sw
    let e := (sw.map swE).getD 127
    (e = 0 → r = (0, 0)) ∧ (e = 255 → r = (NTy.fp32.canonNaN, 0))
    ∧ (e ≠ 0 → e ≠ 255 → ((t.value c).isNaN = true → r = (NTy.fp32.canonNaN, 0))
      ∧ (t.value c = .inf n → isInf .fp32 n r) ∧ ((t.value c).isFin n → roundsTo .fp32 n (t.rat c * s) .rne false r)))

/-- The predicate stack and the votes (R93 to R95, R97): VCMP pushes its result ANDed with the mask, VELSE turns the top
into its parent without it, VEND drops it, VVOTE pushes ANY or ALL of the mask into the named outcome queues. That an
element of a port which the word does not access counts as 0 is the model's (assumption 141). -/
def Obligations.PredicateWords : Prop :=
  ∀ (s s1 s2 : State) (r : VRel) (u q all x y : Nat) (a b : VSrc) (ty : VTy) (top par : Mask) (l : List Mask),
    s.present = true → s.st.commit ≠ .done →
    let w := ty.bits
    let act := laneBits w (s.active (w / 8) (1024 / w))
    let bad := faultAt s .v { code := .illegalOperand }
    (s.st.regs.pred.length < 16 → s.srcOk a 1 = .ok () → s.srcOk b 1 = .ok () → s.source a 1 w act = .ok (x, s1) →
      s1.source b 1 w act = .ok (y, s2) → s2.upsets = [] → issues (.vcmp r u a b ty) .v s (fun t => ∃ m : Mask,
        t.st.regs.pred = m :: s.st.regs.pred ∧ t.st.regs.v = s.st.regs.v ∧ sameBytes s2 t
        ∧ ∀ j, j < 128 → m.getLsbD j =
          (s.mask.getLsbD j && relLane r (ty.nty (u == 1)) (lane w (j / (w / 8)) x) (lane w (j / (w / 8)) y))))
    ∧ (16 ≤ s.st.regs.pred.length → exec (.vcmp r u a b ty) s = .next (takeFault bad s))
    ∧ (s.st.regs.pred = top :: par :: l →
      issues .velse .v s (fun t => t.st.regs.pred = (par &&& ~~~ top) :: par :: l ∧ onlyStrand s t)
      ∧ issues .vend .v s (fun t => t.st.regs.pred = par :: l ∧ onlyStrand s t))
    ∧ (s.st.regs.pred = [top] →
      exec .velse s = .next (takeFault bad s) ∧ exec .vend s = .next (takeFault bad s))
    ∧ (let named (e : Eng) : Prop :=
        (e = .s ∧ bit q 0 = true) ∨ (e = .m ∧ bit q 1 = true) ∨ (e = .c ∧ bit q 2 = true)
      (∀ e, named e → (s.oq e).length < 16) → issues (.vvote q all) .v s (fun t =>
        (∀ e, named e → t.oq e = s.oq e ++
          [if all = 1 then decide (s.mask = BitVec.allOnes 128) else decide (s.mask ≠ 0#128)])
        ∧ (∀ e, ¬ named e → t.oq e = s.oq e) ∧ t.st.regs = s.st.regs ∧ onlyStrand s t))

/-- Quantization and dequantization of 128 block-scaled elements (R166 to R168): each active element under the scale word of
its group of 16; 4-bit codes fill the low half of the destination, a register or a port, and leave its high half 0. That the
flags are set at issue is the model's (assumption 116), and so are the scale words that a port yields (assumption 26) and
what an entry of q gives (assumption 118). -/
def Obligations.BlockScaledWords : Prop :=
  ∀ (s s1 s2 : State) (n : Nat) (a b : VSrc) (ty : VTy) (sg x y : Nat), s.present = true → s.st.commit ≠ .done → n < 32 →
    s2.upsets = [] → s.srcOk b 1 = .ok () →
    let act := s.active 1 128
    let on (k : Nat) : Bool := s.mask.getLsbD k
    let cw := if ty = .i16 then 4 else 8
    let qz (k : Nat) := quantize (NTy.fp32.value (lane 32 k x)) (codeTy ty (lane 16 (k / 16) y)) (some (lane 16 (k / 16) y))
      (sg == 1)
    let dq (k : Nat) := dequantize (lane cw k x) (codeTy ty (lane 16 (k / 16) y)) (some (lane 16 (k / 16) y))
    (s.srcOk a 4 = .ok () → s.source a 4 32 (laneBits 32 act) = .ok (x, s1) → s1.source b 1 16 (scaleBits act) = .ok (y, s2) →
      (s.regOk n 1 = .ok () → issues (.vquant (.reg n) a b ty sg) .v s (fun t =>
        (∀ k, k < 128 → lane cw k (lget t.st.regs.v n 0#1024).toNat =
          if on k then (qz k).1 % 2 ^ cw else lane cw k (lget s.st.regs.v n 0#1024).toNat)
        ∧ (ty = .i16 → (lget t.st.regs.v n 0#1024).toNat < 2 ^ 512)
        ∧ otherV s t n 1 ∧ flagsOr s2 t 128 on (fun k => (qz k).2) ∧ sameBytes s2 t))
      ∧ (∀ p s3, s2.portPutGroup p (laneBits cw act + if ty = .i16 then ones 1024 - ones 512 else 0)
          (ofLanes cw ((List.range 128).map (fun k => (qz k).1))) 1 = .ok s3 →
        issues (.vquant (.port p) a b ty sg) .v s (fun t => portDone s3 t ∧ flagsOr s3 t 128 on (fun k => (qz k).2))))
    ∧ (s.srcOk a 1 = .ok () → s.source a 1 8 (laneBits cw act) = .ok (x, s1) → s1.source b 1 16 (scaleBits act) = .ok (y, s2) →
      (s.regOk n 4 = .ok () → issues (.vdeq (.reg n) a b ty) .v s (fun t =>
        (∀ k, k < 128 → groupLane t n 32 k = if on k then (dq k).1 % 2 ^ 32 else groupLane s n 32 k)
        ∧ otherV s t n 4 ∧ flagsOr s2 t 128 on (fun k => (dq k).2) ∧ sameBytes s2 t))
      ∧ (∀ p s3, s2.portPutGroup p (laneBits 32 act) (ofLanes 32 ((List.range 128).map (fun k => (dq k).1))) 4 = .ok s3 →
        issues (.vdeq (.port p) a b ty) .v s (fun t => portDone s3 t ∧ flagsOr s3 t 128 on (fun k => (dq k).2))))

/-- The words across the lanes (R173 to R176): reduction and top-k into whole operands, permutations, broadcast, index and
slide into the active lanes, of a register or a port; and the order that top-k rests on: no NaN, the greatest value first,
equal values by index. That the flags of a reduction are set at issue is the model's (assumption 116), and so is that a port
yields every element (assumption 26). -/
def Obligations.CrossLaneWords : Prop :=
  (∀ (t : NTy) (l : List (Nat × Nat)), (l.map Prod.fst).Pairwise (· < ·) →
      let o := topOrder t l
      (∀ i, i ∈ o ↔ ∃ c, (i, c) ∈ l ∧ (t.value c).isNaN = false)
      ∧ o.Pairwise (fun i j => ∀ c d, (i, c) ∈ l → (j, d) ∈ l →
          (t.value c).lt (t.value d) = false ∧ ((t.value d).lt (t.value c) = true ∨ i < j))
      ∧ (∀ w sg, t = .int w sg → ((sextInt w (redLanes .sum t (l.map Prod.snd)).1
          - ((l.map Prod.snd).map (sextInt w)).sum) % 2 ^ w = 0)))
  ∧ (∀ (s s1 s2 : State) (n : Nat) (a b : VSrc) (ty : VTy) (lw : LaneW) (f : VRedFn) (idx imm x y : Nat), s.present = true →
      s.st.commit ≠ .done → s.upsets = [] → s1.upsets = [] → s2.upsets = [] → n < 32 → s.srcOk a 1 = .ok () →
      s.srcOk b 1 = .ok () →
      let w := ty.bits
      let cnt := 1024 / w
      let on (k j : Nat) : Bool := s.mask.getLsbD (j * (k / 8))
      let lanes := (((s.active (w / 8) cnt).zip (lanesOf w cnt x)).filter (fun p => p.1)).map Prod.snd
      let red := redLanes f (ty.nty false) lanes
      let top (j : Nat) : Nat := lget ((topOrder (ty.nty false) ((List.range cnt).filterMap (fun j =>
        if on w j then some (j, lane w j x) else none))).take (lane w 0 y)) j (2 ^ w - 1) % 2 ^ w
      let wl := 1024 / lw.lanes
      let into (i : VDst → Instr) (s2 : State) (k c : Nat) (on : Nat → Bool) (v : Nat → Nat) (fl : Nat) : Prop :=
        s.regOk n 1 = .ok () → issues (i (.reg n)) .v s (fun t =>
          (∀ j, j < c → groupLane t n k j = if on j then v j else groupLane s n k j) ∧ otherV s t n 1
          ∧ t.st.flags = s2.st.flags ||| BitVec.ofNat 6 fl ∧ sameBytes s2 t)
      let out (i : VDst → Instr) (s2 : State) (k c mask : Nat) (v : Nat → Nat) (fl : Nat) : Prop :=
        ∀ p s3, s2.portPutGroup p mask (ofLanes k ((List.range c).map v)) 1 = .ok s3 →
          issues (i (.port p)) .v s (fun t => portDone s3 t ∧ t.st.flags = s3.st.flags ||| BitVec.ofNat 6 fl)
      let puts (i : VDst → Instr) (s2 : State) (k c : Nat) (v : Nat → Nat) : Prop :=
        into i s2 k c (on k) v 0 ∧ out i s2 k c (laneBits k (s.active (k / 8) c)) v 0
      let all (i : VDst → Instr) (s2 : State) (v : Nat → Nat) (fl : Nat) : Prop :=
        into i s2 w cnt (fun _ => true) v fl ∧ out i s2 w cnt (allBits 1) v fl
      (s.source a 1 w (allBits 1) = .ok (x, s1) →
        all (fun d => .vred f d a ty) s1 (fun j => if j = 0 then red.1 % 2 ^ w else 0) red.2
        ∧ (s1.source b 1 w (allBits 1) = .ok (y, s2) →
          puts (fun d => .vperm d a b ty) s2 w cnt (fun j => lane w (lane w j y % cnt) x)
          ∧ into (fun d => .vshuf d a b ty) s2 w cnt (on w) (fun j =>
              let z := lane w j (s2.rdV n).toNat % (2 * cnt)
              if z < cnt then lane w z x else lane w (z - cnt) y) 0
          ∧ all (fun d => .vtopk d a b ty) s2 top 0))
      ∧ (s.source a 1 wl (allBits 1) = .ok (x, s1) →
        puts (fun d => .vbcast d a lw idx) s1 wl lw.lanes (fun _ => lane wl idx x)
        ∧ puts (fun d => .vslide d a lw imm) s1 wl lw.lanes (fun j =>
            let z := (j : Int) - sextInt 8 imm
            if 0 ≤ z ∧ z < lw.lanes then lane wl z.toNat x else 0))
      ∧ puts (fun d => .viota d imm) s 32 32 (fun j => wrapInt 32 (sextInt 12 imm + (j : Int))))

/-- The sequences of a tile in any direction are its elements, each once (R106, R107, Table 5.3). VTR reads one into the
active lanes of a vector, converted where it names a type, with zeros beyond its end; VTW writes its active elements, but
for one that an M word wrote with nothing to order the two (R104), and no other bit of the tile (R177, R178). VQPUSH pushes
bits 63:0 of its operand whatever the mask (R142); that an entry of q fills its operand byte by byte is the model's
(assumption 25), and so is that the flags are set at issue (assumption 116). -/
def Obligations.TilesAndVectors : Prop :=
  (∀ (w : Nat) (dir : Dir) (x k x' k' : Nat), w = 1 ∨ w = 2 ∨ w = 4 → x < 64 → x' < 64 → k < 128 / w → k' < 128 / w →
      (seqElem w dir x k).1 < 64 ∧ (seqElem w dir x k).2 < 128 / w
      ∧ (seqElem w dir x k = seqElem w dir x' k' → x = x' ∧ k = k'))
  ∧ (∀ (s s1 : State) (n tl idx x : Nat) (a : VSrc) (dir : Dir) (cv : Option VTy) (m : Rnd) (ty : TileTy),
      s.present = true → s.st.commit ≠ .done → s.upsets = [] → n < 32 → tl < 8 → idx < 64 → s.tileTy tl = ty.code →
      let tt := s.tileNTy tl
      let wt := tt.width
      let wv := (cv.map VTy.bits).getD wt
      let g := max 1 (wv / wt)
      let on (k : Nat) : Bool := s.mask.getLsbD (k * (min wt wv / 8))
      let old := (lget s.st.regs.t tl 0#65536).toNat
      ((∀ h ∈ s.st.hz, h.unit = .t tl → h.was = none) →
        let rd (k : Nat) : Nat × Nat :=
          if 1024 / wt ≤ k then (0, 0) else
          let c := fld (s.rdT tl) (seqBit (wt / 8) dir idx k) wt
          match cv with
          | none => (c, 0)
          | some v => convert c tt (v.nty false) m false
        (s.regOk n g = .ok () → issues (.vtr (.reg n) tl dir idx cv m) .v s (fun t =>
          (∀ k, k < max (1024 / wt) (1024 / wv) →
            groupLane t n wv k = if on k then (rd k).1 % 2 ^ wv else groupLane s n wv k)
          ∧ otherV s t n g ∧ flagsOr s t (max (1024 / wt) (1024 / wv)) on (fun k => (rd k).2) ∧ onlyStrand s t))
        ∧ (∀ p s3, s.portPutGroup p (laneBits wv (s.active (min wt wv / 8) (max (1024 / wt) (1024 / wv))))
            (ofLanes wv ((List.range (max (1024 / wt) (1024 / wv))).map (fun k => (rd k).1))) g = .ok s3 →
          issues (.vtr (.port p) tl dir idx cv m) .v s (fun t =>
            portDone s3 t ∧ flagsOr s3 t (max (1024 / wt) (1024 / wv)) on (fun k => (rd k).2))))
      ∧ (s.srcOk a g = .ok () →
        s.source a g wv (laneBits wv (s.active (min wt wv / 8) (1024 / wt))) = .ok (x, s1) →
        let wr (k : Nat) : Nat × Nat :=
          match cv with
          | none => (lane wv k x, 0)
          | some v => convert (lane wv k x) (v.nty false) tt m false
        issues (.vtw a tl dir idx cv m) .v s (fun t =>
          let new := (lget t.st.regs.t tl 0#65536).toNat
          (∀ k, k < 1024 / wt → on k = true → fld new (seqBit (wt / 8) dir idx k) wt = (wr k).1 % 2 ^ wt
            ∨ fld new (seqBit (wt / 8) dir idx k) wt = fld old (seqBit (wt / 8) dir idx k) wt
              ∧ ∃ h ∈ s1.st.hz, h.unit = .t tl ∧ h.eng ≠ .v ∧ h.late s1.now .v = true)
          ∧ (∀ b, b < 65536 → (∀ k, k < 1024 / wt → on k = true →
              b < seqBit (wt / 8) dir idx k ∨ seqBit (wt / 8) dir idx k + wt ≤ b) → new.testBit b = old.testBit b)
          ∧ (∀ j, j ≠ tl → lget t.st.regs.t j 0#65536 = lget s.st.regs.t j 0#65536)
          ∧ t.st.regs.v = s.st.regs.v ∧ flagsOr s1 t (1024 / wt) on (fun k => (wr k).2))))
  ∧ (∀ (s s1 : State) (q x : Nat) (a : VSrc), s.present = true → s.st.commit ≠ .done → s.srcOk a 1 = .ok () →
      s.source a 1 8 (allBits 1) = .ok (x, s1) →
      let i := if q = 0 then 3 else 5
      (s1.queue i).length < 16 → issues (.vqpush q a) .v s (fun t =>
        t.queue i = s1.queue i ++ [some (BitVec.ofNat 64 x)] ∧ (∀ j, j ≠ i → t.queue j = s1.queue j)
        ∧ t.st.regs = s1.st.regs ∧ sameBytes s1 t))

/-- Ports and the words that address memory by lane, where every address lies in the strand's own scratchpad. A port's
operands follow its nest (R146); a read port yields the active elements and 0 for the others, a write port's stores wait to
perform under their token (R145, R147). VGATH's values are on their way under its token, VSCAT's stores wait in lane order,
VAMO is applied element by element in lane order (R179 to R182). VGATH, VSCAT and VAMO issue from any state in which S→V has
their base, converted between the queue's types, their operands are registers or zero, and no earlier store of V is left.
Lanes 32 and above of a narrow VGATH are written 0 where they are active (R180). That a port's element is fetched at the
word that pops it is the model's (assumption 119). -/
def Obligations.VectorMemory : Prop :=
  (∀ (c : PortCfg) (c0 c1 c2 c3 : Nat) (d0 d1 d2 d3 : Int) (i0 i1 i2 i3 k : Nat), c.counts = [c0, c1, c2, c3] →
      c.strides = [d0, d1, d2, d3] → i0 < c0 → i1 < c1 → i2 < c2 → i3 < c3 →
      ((c.addr (i0 + c0 * (i1 + c1 * (i2 + c2 * i3))) k : Nat) : Int)
        = (c.base + i0 * d0 + i1 * d1 + i2 * d2 + i3 * d3 + k * (c.estride * 2 ^ c.esz)) % 2 ^ 64)
  ∧ (∀ (s : State) (p act v : Nat) (c : PortCfg) (o : Nat → Nat), s.able → p < 4 → c.esz < 4 →
      let n := (lget s.st.qs.port p {}).moved
      let e := 2 ^ c.esz
      let on (k : Nat) : Bool := fld act (8 * e * k) (8 * e) != 0
      (∀ k, k < 128 / e → on k = true → s.ownAt (c.addr n k) e (o k)) →
      (s.portCur p 0 = .ok c → ∃ x t, s.portRead p act = .ok (x, t)
        ∧ (∀ k, k < 128 / e → lane (8 * e) k x = if on k then s.own (o k) e else 0)
        ∧ t = s.portNext p c)
      ∧ (s.portCur p 1 = .ok c → c.tv = 1 → c.tok < 8 → s.st.tokCount c.tok < 63 → (∃ k, k < 128 / e ∧ on k = true) →
        ∃ t w, s.portWrite p act v = .ok t ∧ t.st.psts = s.st.psts ++ [w]
          ∧ w.tok = some c.tok ∧ w.cls = c.oc ∧ w.eng = .v ∧ t.st.tokCount c.tok = s.st.tokCount c.tok + 1
          ∧ (∀ q b, (q, b) ∈ w.writes ↔ ∃ k j, k < 128 / e ∧ on k = true ∧ j < e ∧ fld act (8 * (e * k + j)) 8 ≠ 0
              ∧ q = .spad s.cur (o k + j) ∧ b = BitVec.ofNat 8 (fld v (8 * (e * k + j)) 8))
          ∧ sameBytes s t))
  ∧ (∀ (s s1 s2 : State) (n w sc sg x : Nat) (a d : VSrc) (ty : VTy) (f : VAmoFn) (addrs : List Nat) (o : Nat → Nat),
      s.able → w < 8 → s.st.tokCount w < 63 → s.srcOk a 1 = .ok () → s.vgBase a sc sg = .ok (addrs, s1) →
      let b := ty.bits
      let act := s1.vgActive addrs
      s1.upsets = [] →
      (n < 32 → s.regOk n 1 = .ok () → s.st.storing .v (some 0) = false →
        (∀ p ∈ act, s1.ownAt p.2 (b / 8) (o p.1)) → issues (.vgath (.reg n) a w sc sg ty) .v s (fun t =>
          ∃ r, t.st.rets = s1.st.rets ++ [r] ∧ r.dst = .v n ∧ r.tok = w
            ∧ t.st.tokCount w = s.st.tokCount w + 1 ∧ t.st.regs.v = s.st.regs.v ∧ sameBytes s1 t
            ∧ (∀ p ∈ act, fld r.mask (b * p.1) b = 2 ^ b - 1 ∧ fld r.val (b * p.1) b = s1.own (o p.1) (b / 8))
            ∧ (∀ i, i < 32 → i ∉ act.map Prod.fst → fld r.mask (b * i) b = 0)
            ∧ (∀ i, 32 ≤ i → i < 1024 / b → fld r.val (b * i) b = 0
              ∧ fld r.mask (b * i) b = if s.mask.getLsbD (i * (b / 8)) then 2 ^ b - 1 else 0)))
      ∧ (s.srcOk d 1 = .ok () → s1.source d 1 b (laneBits b (s1.active 4 32)) = .ok (x, s2) → s2.upsets = [] →
        (∀ p ∈ act, s2.ownAt p.2 (b / 8) (o p.1)) → issues (.vscat d a w sc sg ty) .v s (fun t =>
          ∃ r, t.st.psts = s2.st.psts ++ [r] ∧ r.tok = some w ∧ r.cls = 0 ∧ r.eng = .v
            ∧ t.st.tokCount w = s.st.tokCount w + 1 ∧ sameBytes s2 t
            ∧ r.writes = act.flatMap (fun p => (List.range (b / 8)).map (fun j =>
                (.spad s.cur (o p.1 + j), BitVec.ofNat 8 (fld x (b * p.1 + 8 * j) 8))))))
      ∧ (s.srcOk d 1 = .ok () → s.st.storing .v none = false →
        s1.source d 1 32 (laneBits 32 (s1.active 4 32)) = .ok (x, s2) → s2.upsets = [] →
        (∀ p ∈ act, s2.ownAt p.2 4 (o p.1)) → issues (.vamo f d a w sc sg ty) .v s (fun t =>
          let q := amoSeq f x (s2.core s.cur).spad (act.map (fun p => (p.1, o p.1)))
          (t.core s.cur).spad = q.2 ∧ t.home = s2.home
          ∧ ∃ l r, t.st.rets = l ++ [r] ∧ (∀ x ∈ l, x.eng = .v → x.src = [])
            ∧ l.map (fun x => { x with src := [] }) = s2.st.rets.map (fun x => { x with src := [] })
            ∧ r.tok = w ∧ (∀ m, d = .reg m → r.dst = .v m)
            ∧ (∀ p ∈ q.1, fld r.mask (32 * p.1) 32 = 2 ^ 32 - 1 ∧ fld r.val (32 * p.1) 32 = p.2))))
  ∧ (∀ (s : State) (n w sc sg : Nat) (a d : VSrc) (ty : VTy) (f : VAmoFn) (base : Dbl) (l : List (Option Dbl)) (o : Nat → Nat),
      s.able → s.st.vregs ≤ 32 → w < 8 → s.st.tokCount w < 63 → s.st.storing .v none = false → s.regSrc 1 a → s.regSrc 1 d →
      n < s.st.vregs → s.queue 0 = some base :: l →
      (∀ p ∈ s.vgActive (vgAddrs (qConvert (lget s.st.qs.src 0 15) (lget s.st.qs.snk 0 15) base).1.toNat (s.regVal 1 a) sc sg), s.ownAt p.2 (ty.bits / 8) (o p.1)) →
      issues (.vgath (.reg n) a w sc sg ty) .v s (fun t => t.queue 0 = l)
      ∧ issues (.vscat d a w sc sg ty) .v s (fun t => t.queue 0 = l)
      ∧ (ty.bits = 32 → issues (.vamo f d a w sc sg ty) .v s (fun t => t.queue 0 = l)))

/-! ## The matrix and copy engines -/

/-- The tile words of M, where Keystone lets them issue (R108, R294 to R296): TCFG, which waits for loads and stores of its
tile, sets type and contents, TZERO clears, TMOV, TSCAL and TADD work element by element along the directions named, but for
elements that V writes with nothing to order the two (R104); TLD and TST move a tile from and to the strand's own scratchpad
with the base and pitch that they pop. -/
def Obligations.TileComputing : Prop :=
  ∀ (s : State) (d a b : Nat) (dd da db : Dir) (keep : Nat) (ty te : TileTy), s.present = true → s.st.commit ≠ .done →
    s.st.ks.window = [] → d < 8 →
    let tile (t : State) (j : Nat) : Nat := (lget t.st.regs.t j 0#65536).toNat
    let others (t : State) : Prop := ∀ j, j ≠ d → lget t.st.regs.t j 0#65536 = lget s.st.regs.t j 0#65536
    let w := tyBytes (s.tileTy d)
    let calm : Prop := ∀ h ∈ s.st.hz, h.unit = .t d → h.eng = .m ∨ h.late s.now .m = false
    let seen (j : Nat) : Prop := ∀ h ∈ s.st.hz, h.unit = .t j → h.late s.now .m = false
    (s.keyGate = .ok () →
      (s.st.tileBusy d = true → exec (.tcfg d keep ty) s = .next s)
      ∧ (s.st.tileBusy d = false → issues (.tcfg d keep ty) .m s (fun t => lget t.st.regs.tt d 4 = ty.code
        ∧ (∀ j, j ≠ d → lget t.st.regs.tt j 4 = lget s.st.regs.tt j 4) ∧ others t ∧ onlyStrand s t
        ∧ (calm → tile t d = if keep = 1 ∧ tyBytes ty.code = w then tile s d else 0)))
      ∧ issues (.tzero d) .m s (fun t => (calm → tile t d = 0) ∧ others t ∧ t.st.regs.tt = s.st.regs.tt ∧ onlyStrand s t)
      ∧ (s.tileTy d = te.code → typesOk s.st.regs.tt (.tmov d dd a da) = true → issues (.tmov d dd a da) .m s (fun t =>
          others t ∧ t.st.regs.tt = s.st.regs.tt ∧ onlyStrand s t ∧ (calm → ∀ x k, x < 64 → k < 128 / w →
            tileAt w dd (tile t d) x k = tileAt w da (s.rdTM a) x k)))
      ∧ (s.tileTy d = te.code → typesOk s.st.regs.tt (.tadd d dd a da b db) = true →
        issues (.tadd d dd a da b db) .m s (fun t => others t ∧ t.st.regs.tt = s.st.regs.tt ∧ onlyStrand s t
          ∧ (calm → ∀ x k, x < 64 → k < 128 / w → tileAt w dd (tile t d) x k
            = (arithLane .add (s.tileNTy d) false (tileAt w da (s.rdTM a) x k) (tileAt w db (s.rdTM b) x k) 0).1
              % 2 ^ (8 * w))))
      ∧ (∀ e l, s.tileTy d = te.code → typesOk s.st.regs.tt (.tscal d dd a da) = true → s.queue 1 = some e :: l →
        let e := (qConvert (lget s.st.qs.src 1 15) (lget s.st.qs.snk 1 15) e).1
        issues (.tscal d dd a da) .m s (fun t =>
          others t ∧ t.queue 1 = l ∧ onlyStrand s t ∧ (calm → seen a → ∀ x k, x < 64 → k < 128 / w →
            tileAt w dd (tile t d) x k
              = (rnd (((s.tileNTy d).value (tileAt w da (s.rdTM a) x k)).mul (NTy.fp32.value (e.toNat % 2 ^ 32))).1
                  (s.tileNTy d) .rne false).1 % 2 ^ (8 * w)))))
    ∧ (∀ (base pitch : Dbl) (l : List (Option Dbl)) (oc tk : Nat) (o : Nat → Nat → Nat), s.upsets = [] →
      s.tileTy d = te.code → tk < 8 → s.st.tokCount tk < 63 → s.st.cyc.waited = 0#8 →
      s.queue 1 = some base :: some pitch :: l →
      let base := (qConvert (lget s.st.qs.src 1 15) (lget s.st.qs.snk 1 15) base).1
      let pitch := (qConvert (lget s.st.qs.src 1 15) (lget s.st.qs.snk 1 15) pitch).1
      pitch.toInt % w = 0 → -(2 ^ 31 : Int) ≤ pitch.toInt → pitch.toInt < 2 ^ 31 →
      (∀ x k, x < 64 → k < 128 / w → s.ownAt (tileAddr base.toNat pitch.toInt w x k) w (o x k)) →
      (s.st.storing .m (some oc) = false →
        issues (.tld d dd oc tk) .m s (fun t => ∃ r, t.st.rets = s.st.rets ++ [r] ∧ r.dst = .t d ∧ r.tok = tk
          ∧ r.mask = tileOnes ∧ t.st.tokCount tk = s.st.tokCount tk + 1 ∧ t.st.regs.t = s.st.regs.t
          ∧ t.queue 1 = l ∧ (∀ p, t.byteAt p = s.byteAt p)
          ∧ ∀ x k, x < 64 → k < 128 / w → tileAt w dd r.val x k = s.own (o x k) w))
      ∧ issues (.tst d dd oc tk) .m s (fun t => ∃ r, t.st.psts = s.st.psts ++ [r] ∧ r.tok = some tk ∧ r.cls = oc
          ∧ r.eng = .m ∧ t.st.tokCount tk = s.st.tokCount tk + 1 ∧ t.queue 1 = l ∧ (∀ p, t.byteAt p = s.byteAt p)
          ∧ (seen d → ∀ q v, (q, v) ∈ r.writes ↔ ∃ x k j, x < 64 ∧ k < 128 / w ∧ j < w ∧ q = .spad s.cur (o x k + j)
              ∧ v = BitVec.ofNat 8 (fld (tileAt w dd (s.rdTM d) x k) (8 * j) 8))))

/-! ## Commands of the Girder and the copy engine -/

/-- The lease (R272 to R274): MLEASE gives up a lease and waits, and completes once the Girder has granted it; MFREE ends
it; MMARK and MISSUE without one raise LEASE, and MMARK under one places a marker and begins a window (R289). The Girder
grants to the first waiting strand after the previous holder in cyclic LOCAL order, and a lease lapses when its cycles are
over. That a grant to a waiting strand empties its window is the model's (assumption 34). -/
def Obligations.LeasesAndMarks : Prop :=
  (∀ s : State, s.able → s.shape = true → s.cur < 128 →
    let n := clusterOf s.cur
    (s.st.leaseAsk = false → ∃ t, exec .mlease s = .next t ∧ t.st.lease = .waiting ∧ t.st.leaseAsk = true
      ∧ t.st.em = s.st.em ∧ (t.girder n).holder ≠ some s.cur ∧ (t.girder n).queue = (s.girder n).queue)
    ∧ (s.st.leaseAsk = true → s.st.lease = .waiting → exec .mlease s = .next s)
    ∧ (s.st.leaseAsk = true → s.st.lease ≠ .waiting → issues .mlease .m s (fun t =>
        t.st.lease = s.st.lease ∧ t.st.leaseAsk = false ∧ onlyStrand s t))
    ∧ (s.st.ks.window = [] →
      issues .mfree .m s (fun t => t.st.lease = .none ∧ (t.girder n).holder ≠ some s.cur
        ∧ (t.girder n).queue = (s.girder n).queue)
      ∧ (s.st.lease = .held → (s.girder n).used < 16 → issues .mmark .m s (fun t =>
        (t.girder n).queue = (s.girder n).queue ++ [.marker s.cur] ∧ (t.girder n).lcnt = (s.girder n).lcnt
        ∧ (t.girder n).holder = (s.girder n).holder ∧ t.st.lease = .held ∧ t.st.window = []
        ∧ t.st.winNo = s.st.winNo + 1))
      ∧ (s.st.lease = .held → 16 ≤ (s.girder n).used → exec .mmark s = .next s)
      ∧ (s.st.lease = .none → exec .mmark s = .next (takeFault (faultAt s .m { code := .lease }) s)))
    ∧ (s.keyGate = .ok () → (s.st.lease = .none ∨ s.st.lease = .waiting) → ∀ k q,
      exec (.missue k q) s = .next (takeFault (faultAt s .m { code := .lease }) s)))
  ∧ (∀ (s : State) (n i : Nat), s.shape = true → n < 32 → (s.girder n).fenced = false → i < 4 →
    let want (j : Nat) : Bool :=
      let t := s.strand (4 * n + ((s.girder n).prev + 1 + j) % 4)
      t.live && (t.lease == .waiting || (t.lease == .lapsed && t.leaseAsk))
    let k := 4 * n + ((s.girder n).prev + 1 + i) % 4
    ((s.girder n).holder = none → want i = true → (∀ j, j < i → want j = false) →
      ∃ t, exec (.leaseGrant n) s = .next t ∧ (t.girder n).holder = some k ∧ (t.girder n).lcnt = 0
        ∧ (t.girder n).curLen = (s.girder n).leaseLen ∧ (t.girder n).curCyc = (s.girder n).leaseCyc
        ∧ (t.strand k).lease = .held ∧ ((s.strand k).lease = .waiting → (t.strand k).window = [])
        ∧ ∀ j, j ≠ k → t.strand j = s.strand j)
    ∧ ((s.girder n).holder = none → (∀ j, j < 4 → want j = false) → exec (.leaseGrant n) s = .next s)
    ∧ ((s.girder n).holder = some k → exec (.leaseGrant n) s = .next s)
    ∧ ((s.girder n).holder = some k → (s.girder n).curCyc ≠ 0 → (s.girder n).grantAt + (s.girder n).curCyc ≤ s.now →
      ∃ t, exec (.leaseLapseCycles n) s = .next t ∧ (t.girder n).holder = none ∧ (t.girder n).prev = k % 4
        ∧ (t.strand k).lease = .lapsed ∧ ∀ j, j ≠ k → t.strand j = s.strand j)
    ∧ ((s.girder n).holder = some k → ((s.girder n).curCyc = 0 ∨ s.now < (s.girder n).grantAt + (s.girder n).curCyc) →
      exec (.leaseLapseCycles n) s = .next s))

/-- MSET, MSETQ, CSET and CSETQ write halfwords of a command register and nothing else (R249, R276); a queue that is empty
while its producer may still push holds the popping words back (R137). MBOND and MORDER (R299, R301): a bond dimension and a
chain program are set while no chain is open, the program from the own scratchpad where it keeps the limits of R300 and
R301, and ILLEGAL_OPERAND is raised where they are not met. -/
def Obligations.CommandRegisters : Prop :=
  (∀ (s : State) (k f imm : Nat), s.able → k < 4 → f < 64 →
      let conv (q : Nat) (x : Dbl) : Nat := (qConvert (lget s.st.qs.src q 15) (lget s.st.qs.snk q 15) x).1.toNat
      let wrote (x y : Nat) (n v : Nat) : Prop :=
        ∀ i, i < 64 → hw y i = if f ≤ i ∧ i < f + n then fld v (16 * (i - f)) 16 else hw x i
      (s.keyGate = .ok () →
        issues (.mset k f imm) .m s (fun t => wrote (s.regK k) (t.regK k) 1 imm ∧ (∀ j, j ≠ k → t.regK j = s.regK j)
          ∧ (∀ q, t.queue q = s.queue q) ∧ onlyStrand s t)
        ∧ (∀ x l, f ≤ 60 → s.queue 1 = some x :: l →
          issues (.msetq k f) .m s (fun t => wrote (s.regK k) (t.regK k) 4 (conv 1 x) ∧ (∀ j, j ≠ k → t.regK j = s.regK j)
            ∧ t.queue 1 = l ∧ (∀ q, q ≠ 1 → t.queue q = s.queue q) ∧ onlyStrand s t))
        ∧ (s.queue 1 = [] → s.producerDone 1 = false → exec (.msetq k f) s = .next s))
      ∧ issues (.cset k f imm) .c s (fun t => wrote (s.regC k) (t.regC k) 1 imm ∧ (∀ j, j ≠ k → t.regC j = s.regC j)
          ∧ (∀ q, t.queue q = s.queue q) ∧ onlyStrand s t)
      ∧ (∀ x l, f ≤ 60 → s.queue 2 = some x :: l →
          issues (.csetq k f) .c s (fun t => wrote (s.regC k) (t.regC k) 4 (conv 2 x) ∧ (∀ j, j ≠ k → t.regC j = s.regC j)
            ∧ t.queue 2 = l ∧ (∀ q, q ≠ 2 → t.queue q = s.queue q) ∧ onlyStrand s t))
      ∧ (s.queue 2 = [] → s.producerDone 2 = false → exec (.csetq k f) s = .next s))
  ∧ ((∀ (s : State) (n imm : Nat), s.able → n < 16 →
      (s.st.chain.opened = false → issues (.mbond n imm) .m s (fun t => lget t.st.regs.bd n 0#16 = BitVec.ofNat 16 imm
        ∧ (∀ j, j ≠ n → lget t.st.regs.bd j 0#16 = lget s.st.regs.bd j 0#16) ∧ onlyStrand s t))
      ∧ (s.st.chain.opened = true → exec (.mbond n imm) s = .next (takeFault (faultAt s .m { code := .illegalOperand }) s)))
    ∧ (∀ (s : State) (x : Dbl) (l : List (Option Dbl)) (o : Nat), s.able → s.queue 1 = some x :: l →
      (qConvert (lget s.st.qs.src 1 15) (lget s.st.qs.snk 1 15) x).1.toNat = spadBase + o → o % 16 = 0 → o < 0x80000 →
      let n := 48 + 16 * s.own o 1
      o + n ≤ s.st.allot →
      (s.st.chain.opened = false → progOk (s.own o n) = true → issues .morder .m s (fun t =>
        t.st.chain = { s.st.chain with prog := some (s.own o n) } ∧ t.queue 1 = l ∧ (∀ q, q ≠ 1 → t.queue q = s.queue q)
        ∧ onlyStrand s t))
      ∧ ((s.st.chain.opened = true ∨ progOk (s.own o n) = false) →
        exec .morder s = .next (takeFault (faultAt s .m { code := .illegalOperand }) s))))

/-- MISSUE under a lease (R277, R280): it pops what its kind pops, raises ILLEGAL_ENCODING, BOUNDARY_OVERFLOW (R304) or
COMMAND_FIELD where a check fails, and else puts the command with its format word at the back of the Girder queue and in the
strand's window, raises its token, and counts under the lease, which lapses with its last command (R273). A CHAIN moves the
chain state (R302). -/
def Obligations.CommandIssue : Prop :=
  ∀ (s : State) (kn q : Nat) (f : Word) (fq : List (Option Word)) (x : Dbl) (vm : List (Option Dbl)), s.able →
    s.shape = true → s.cur < 128 → kn < 4 → s.keyGate = .ok () → s.st.lease = .held →
    let n := clusterOf s.cur
    let g := s.girder n
    let k := s.regK kn
    let F := if popsFq k then f.toNat else 0
    let stop (i : FInfo) := exec (.missue kn q) s = .next (takeFault (faultAt s .m i) s)
    g.holder = some s.cur → g.used < 16 →
    (popsFq k = true → s.st.qs.fq = some f :: fq) → (popsVm k = true → s.queue 5 = some x :: vm) →
    let runs (ch : Option ChStep) (P : State → Prop) : Prop :=
      issues (.missue kn q) .m s (fun t => ∃ c : GCmd, (t.girder n).queue = g.queue ++ [.cmd c]
        ∧ t.st.window = s.st.window ++ [c] ∧ c.core = s.cur ∧ c.k = k ∧ c.text = (s.st.eng .m).pc ∧ c.fmt = F
        ∧ c.mig = (q == 1) ∧ c.started = false ∧ c.done = false ∧ c.ch = ch ∧ c.kslot = none
        ∧ c.vm = (if popsVm k then
            some ((qConvert (lget s.st.qs.src 5 15) (lget s.st.qs.snk 5 15) x).1.toNat % 65536) else none)
        ∧ t.st.qs.fq = (if popsFq k then fq else s.st.qs.fq)
        ∧ t.queue 5 = (if popsVm k then vm else s.queue 5)
        ∧ (∀ w, w < 8 → t.st.tokCount w = s.st.tokCount w + if kTv k ∧ kTok k = w then 1 else 0)
        ∧ (g.curLen ≤ g.lcnt + 1 → t.st.lease = .lapsed ∧ (t.girder n).holder = none)
        ∧ (g.lcnt + 1 < g.curLen → t.st.lease = .held ∧ (t.girder n).holder = some s.cur
          ∧ (t.girder n).lcnt = g.lcnt + 1)
        ∧ P t)
    (missueEnc k F = false → stop { code := .illegalEncoding })
    ∧ (missueEnc k F = true → kKind k ≠ 3 →
      (s.missueFields k F = false → stop { code := .commandField })
      ∧ (s.missueFields k F = true → s.gCheck (kKind k == 6) (gRanges k F) = .ok () →
        (kTv k = true → s.st.tokCount (kTok k) < 63) → runs none (fun t => t.st.chain = s.st.chain)))
    ∧ (∀ c, missueEnc k F = true → kKind k = 3 → s.chainNow k = some c →
      (65536 < c.count →
        stop { code := .boundaryOverflow, cstep := c.step, aux := some c.core, data := min 0xFFFFFFFF c.count })
      ∧ (c.count ≤ 65536 → (s.missueFields k F && s.chainOk k F c) = false → stop { code := .commandField })
      ∧ (c.count ≤ 65536 → s.missueFields k F = true → s.chainOk k F c = true →
        s.gCheck false (chainRanges k F c) = .ok () → (kTv k = true → s.st.tokCount (kTok k) < 63) →
        runs (some c) (fun t => t.st.chain = s.st.chain.next c)))
    ∧ (missueEnc k F = true → kKind k = 3 → s.st.chain.prog = none → s.missueFields k F = true →
      stop { code := .commandField })

/-- CISSUE (R250, R251, R264): ILLEGAL_ENCODING or COMMAND_FIELD where a check of the register fails, and else, where its
ranges pass and its queue has room, the command stands at the back of its queue and its token is raised. A WSTORE makes the
regions of its destination not ready (R228). CCODE loads a code table of the own scratchpad (R257), CMLIST requests a tile list, and
CMLIST_LIST_WRITE writes the list once its layer is decided (R266). -/
def Obligations.CopyIssue : Prop :=
  (∀ (s : State) (kn q : Nat), s.able → s.shape = true → s.cur < 128 → q < 2 →
    let k := s.regC kn
    let stop (i : FInfo) := exec (.cissue kn q) s = .next (takeFault (faultAt s .c i) s)
    let dest : Prop := if isMulti k then s.mcastOk k = true else s.rangeCheck (dstSpan k) 1 .wr false (kKind k == 8) = .ok ()
    (cissueEnc k = false → stop { code := .illegalEncoding })
    ∧ (cissueEnc k = true → s.cissueFields k = false → stop { code := .commandField })
    ∧ (cissueEnc k = true → s.cissueFields k = true → s.srcChecks (issueSpans k) = .ok () →
      (isMulti k = true → s.mcastOk k = false → stop { code := .scratchBounds, addr := kDst k })
      ∧ (dest → 16 ≤ ((s.core s.cur).cq q).length → exec (.cissue kn q) s = .next s)
      ∧ (dest → ((s.core s.cur).cq q).length < 16 → (kTv k = true → s.st.tokCount (kTok k) < 63) →
        issues (.cissue kn q) .c s (fun t => ∃ c : CCmd, (t.core s.cur).cq q = (s.core s.cur).cq q ++ [c]
          ∧ (t.core s.cur).cq (1 - q) = (s.core s.cur).cq (1 - q) ∧ c.k = k ∧ c.text = (s.st.eng .c).pc
          ∧ c.started = false ∧ c.done = false
          ∧ (∀ w, w < 8 → t.st.tokCount w = s.st.tokCount w + if kTv k ∧ kTok k = w then 1 else 0)
          ∧ (∀ d m, bit (t.die d).ready m = (bit (s.die d).ready m && !(kKind k == 8 && d == dieOf (clusterOf s.cur)
              && (regionsOf k).contains m)))
          ∧ ∀ p, t.byteAt p = s.byteAt p))))
  ∧ (∀ (s : State) (x : Dbl) (l : List (Option Dbl)) (i w o : Nat), s.able → s.queue 2 = some x :: l →
    let x := (qConvert (lget s.st.qs.src 2 15) (lget s.st.qs.snk 2 15) x).1
    (x.toNat = spadBase + o → o % 8 = 0 → o + 128 ≤ s.st.allot → o + 128 ≤ s.carveBase s.cur → i < s.st.codeTab.length →
      (∀ c ∈ (s.core s.cur).ldq ++ (s.core s.cur).stq, kKind c.k ≠ 2) →
      (∀ ls, codeTable (mgets (s.core s.cur).spad o 128) = some ls → issues (.ccode i) .c s (fun t =>
        lget t.st.codeTab i none = some ls ∧ (∀ j, j ≠ i → lget t.st.codeTab j none = lget s.st.codeTab j none)
        ∧ t.queue 2 = l ∧ onlyStrand s t))
      ∧ (codeTable (mgets (s.core s.cur).spad o 128) = none →
        exec (.ccode i) s = .next (takeFault (faultAt s .c { code := .illegalOperand }) s)))
    ∧ (∀ ly, w < 8 → fld x.toNat 0 48 = spadBase + o → o % 8 = 0 → o < 0x80000 →
      o + 8 + 4 * fld x.toNat 48 16 ≤ s.st.allot → fld x.toNat 48 16 ≠ 0 → ly < s.st.task.layers → s.st.cml.length < 4 →
      s.st.tokCount w < 63 → (s.st.task.src = 2 ∨ s.st.task.src = 3) → issues (.cmlist ly w) .c s (fun t =>
        t.st.cml = s.st.cml ++ [{ layer := ly, tok := w, dst := x.toNat, frame := s.st.task.frame }]
        ∧ t.st.tokCount w = s.st.tokCount w + 1 ∧ t.queue 2 = l ∧ onlyStrand s t)))
  ∧ (∀ (s : State) (ly w : Nat), s.able → s.st.task.src < 2 →
      exec (.cmlist ly w) s = .next (takeFault (faultAt s .c { code := .illegalOperand }) s))
  ∧ (∀ (s : State) (core i j : Nat) (c : CmList) (x : Stream) (e : LayerDec), core < s.cores.length →
    (s.strand core).cml[i]? = some c → s.streamOf (s.strand core).task.ctx = some (j, x) →
    (s.upsets = [] → x.decOf c.layer c.frame = some e → ∃ t, exec (.cmlistListWrite core i) s = .next t
      ∧ (t.core core).spad = mputs (s.core core).spad (fld c.dst 0 48 % 0x80000) (listImage e (fld c.dst 48 16))
      ∧ (t.strand core).cml = (s.strand core).cml.eraseIdx i
      ∧ (t.strand core).tokCount c.tok = (s.strand core).tokCount c.tok - 1)
    ∧ (x.decOf c.layer c.frame = none → exec (.cmlistListWrite core i) s = .next s))

/-- KLOAD puts rules of the image into consecutive slots, or raises KEYSTONE_RULE for the first that breaks R315 (R319);
KPERM sets the permissions (R321). KEYSTONE_REWRITE takes the group of the lowest slot whose rule is permitted and matches
(R311): its replacement words issue in order in its place, its entries leave the queues as they issue (R317), and KEY_STAT
counts it (R310). That Keystone reads the words ahead from the text is the model's (assumption 31). -/
def Obligations.KeystoneWords : Prop :=
  (∀ (s : State) (x : Dbl) (l : List (Option Dbl)) (f r : Nat), s.able → s.st.ks.window = [] →
    issues (.kperm f r) .m s (fun t => t.st.ks.pr = (r == 1) ∧ t.st.ks.pf = (f == 1) ∧ t.st.ks.slots = s.st.ks.slots
      ∧ onlyStrand s t)
    ∧ (s.queue 1 = some x :: l → s.st.ks.slots.length = 64 →
      let x := (qConvert (lget s.st.qs.src 1 15) (lget s.st.qs.snk 1 15) x).1
      let a := fld x.toNat 0 8
      let n := fld x.toNat 8 8
      let p := fld x.toNat 16 6
      let rules := (s.image s.cur).rules
      let ok : Prop := fld x.toNat 22 42 = 0 ∧ n ≠ 0 ∧ p + n ≤ 64 ∧ a + n ≤ rules.length
      (ok → (∀ i, i < n → ruleOk (lget rules (a + i) 0) = true) → issues .kload .m s (fun t =>
        (∀ i, i < 64 → lget t.st.ks.slots i none =
          if p ≤ i ∧ i < p + n then some (lget rules (a + (i - p)) 0) else lget s.st.ks.slots i none)
        ∧ t.queue 1 = l ∧ onlyStrand s t))
      ∧ (∀ i, ok → i < n → ruleOk (lget rules (a + i) 0) = false → (∀ j, j < i → ruleOk (lget rules (a + j) 0) = true) →
        exec .kload s = .next (takeFault (faultAt s .m { code := .keystoneRule, aux := some (a + i) }) s))
      ∧ (¬ ok → exec .kload s = .next (takeFault (faultAt s .m { code := .illegalOperand }) s))))
  ∧ (∀ (s0 : State) (core : Nat), core < 128 → s0.shape = true → s0.upsets = [] →
    let s := { s0 with cur := core }
    s.mayAct core .m = true →
    (∀ w l s1, s.st.ks.window = w :: l → keyWord w s = .ok s1 → ∃ t, exec (.keystoneRewrite core) s0 = .next t
      ∧ t.st.ks.window = l ∧ t.st.stall = 0 ∧ t.st.issued = true
      ∧ (let n := if l = [] then s.st.ks.left else s.keyTakes w.ins
        t.queue 1 = (s.queue 1).drop n.1 ∧ t.st.qs.fq = s.st.qs.fq.drop n.2.1 ∧ t.queue 5 = (s.queue 5).drop n.2.2))
    ∧ (∀ w l, s.st.ks.window = w :: l → ∀ f, keyWord w s = .error (.fault f) → exec (.keystoneRewrite core) s0 =
        .next (takeFault { f with engine := 2, text := w.off, rewritten := true, kslot := w.kslot, kpos := w.kpos } s))
    ∧ (∀ g, s.st.ks.window = [] → s.st.commit ≠ .done → s.st.beyond .m ((ownFrom (s.text core) .m s.st.em.pc).getD s.st.em.pc) = false → s.keyDecide = .take g →
      (∀ lim, s.slipLimit core .m = some lim → ((g.ahead.getLast?.map (·.after)).getD s.st.em).walk ≤ lim) →
      (∀ w ∈ g.reps, ∃ i, decodeWord w = .ok i) →
      ∃ t, exec (.keystoneRewrite core) s0 = .next t ∧ t.st.ks.window.length = g.reps.length
        ∧ (∀ j, j < g.reps.length → ∃ w, t.st.ks.window[j]? = some w ∧ decodeWord (lget g.reps j 0) = .ok w.ins
          ∧ w.kslot = g.slot ∧ w.kpos = j)
        ∧ (let n : Nat × Nat × Nat := if g.reps = [] then (g.sim.sm, g.sim.fq, g.sim.vm) else (0, 0, 0)
          t.queue 1 = (s.queue 1).drop n.1 ∧ t.st.qs.fq = s.st.qs.fq.drop n.2.1 ∧ t.queue 5 = (s.queue 5).drop n.2.2
          ∧ t.st.ks.left = (g.sim.sm - n.1, g.sim.fq - n.2.1, g.sim.vm - n.2.2))
        ∧ t.st.ks.applied = min 0xFFFF (s.st.ks.applied + 1)
        ∧ t.st.ks.last = g.slot ∧ t.st.ks.lv = true))
  ∧ (∀ (s : State) (g : KGroup), s.keyDecide = .take g →
    lget s.st.ks.slots g.slot none = some g.rule ∧ g.ahead = (aheadFrom (s.text s.cur) s.now 4 s.st.em).take (rPlen g.rule)
    ∧ patOk g.rule (g.ahead.map (·.word)) = true ∧ (rClass g.rule = 1 → s.st.ks.pr = true)
    ∧ (rClass g.rule = 2 → s.st.ks.pf = true)
    ∧ (s.st.ended = false → ∀ i r, i < g.slot → lget s.st.ks.slots i none = some r →
      s.keyTry i r (aheadFrom (s.text s.cur) s.now 4 s.st.em) = .none))

/-- A copy command that may start moves its payload, whatever its kind (COPY, COPYZ, GATHL, SCATL, MOTION, PGATH, FILL,
WSTORE), and is marked done with its byte count n; a fault met while it runs ends the task with the CISSUE's text offset,
and what was written before it stays (R247, R248, R264, R267). Payloads that it completes with their places in the own
scratchpad, byte by byte, where source and destination lie apart: COPY of a nest of runs (R252), COPY with CONV of one run
(R253), FILL (R255), WSTORE into the weight store of the die (R254), PGATH of one page (R263), COPYZ of a stream that holds
code words of its table (R258), and GATHL, SCATL and MOTION pixel by pixel (R261). That a payload moves in one step is the
model's choice (assumption 9), beside which its other steps read ahead and write one by one; ZX, multicast and places in
device memory have no clause here. -/
def Obligations.CopyPayloads : Prop :=
  (∀ (s0 s1 : State) (core q kd n : Nat) (i : Instr) (l l' : List CCmd) (c : CCmd) (f : FInfo), s0.shape = true →
      core < 128 → s0.copyNext core q l c l' → kKind c.k = kd →
      (kd, i) ∈ [(1, Instr.copy core q), (2, .copyz core q), (3, .gathl core q), (4, .scatl core q), (5, .motion core q),
        (6, .pgath core q), (7, .fill core q), (8, .wstore core q)] →
      let s := { s0 with cur := core }
      let f' := { f with engine := 5, precise := false, text := c.text, ckind := kd, cqueue := q }
      (s.runCopy c core = .ok (n, s1) → exec i s0 = .next ((if unchecked c.k then s1.spent (.copies core) else s1).modCmd core q
          l.length (fun c => { c with started := true, done := true, bytes := n })))
      ∧ (s.runCopy c core = .error (.fault f) → exec i s0 = .next (takeFault f' s))
      ∧ (s.runCopy c core = .error (.partly s1 f) → exec i s0 = .next (takeFault f' s1)))
  ∧ (∀ (s : State) (core q a b n : Nat) (l l' : List CCmd) (c : CCmd), s.shape = true → core < 128 → s.upsets = [] →
      s.copyNext core q l c l' → c.ahead = [] → c.todo = none → kCount c.k 0 = n → isMulti c.k = false →
      let spad := (s.core core).spad
      let done (i : Instr) (n : Nat) (at_ : Nat → Target) (v : Nat → Byte) : Prop :=
        ∃ t, exec i s = .next t ∧ (t.core core).cq q = l ++ { c with started := true, done := true, bytes := n } :: l'
          ∧ (∀ j, j < n → t.byteAt (at_ j) = v j) ∧ ∀ p, (∀ j, j < n → p ≠ at_ j) → t.byteAt p = s.byteAt p
      let mine (j : Nat) : Byte := mget spad j
      let one : Prop := nestCounts c.k = [1, 1, 1, 1]
      let R := nestRuns c.k
      (∀ sa da : Nat → Nat, kKind c.k = 1 → kBit0 c.k = false → cTypes c.k = none → 0 < n →
        (∀ i, i < R → srcAt c.k i = spadBase + sa i ∧ s.ownRange core (sa i) n
          ∧ dstAt c.k i = spadBase + da i ∧ s.ownRange core (da i) n) →
        (∀ i j, i < R → j < R → (sa i + n ≤ da j ∨ da j + n ≤ sa i) ∧ (i ≠ j → da i + n ≤ da j ∨ da j + n ≤ da i)) →
        done (.copy core q) (n * R) (fun j => .spad core (da (j / n) + j % n)) (fun j => mine (sa (j / n) + j % n)))
      ∧ (∀ ta tb, one → kKind c.k = 1 → kBit0 c.k = false → cTypes c.k = some (ta, tb) → 8 ≤ qWidth ta → 8 ≤ qWidth tb →
        let w := qWidth ta / 8
        let h := qWidth tb / 8
        let N := n / w * h
        kSrc c.k = spadBase + a → s.ownRange core a n → kDst c.k = spadBase + b → s.ownRange core b N →
        (a + n ≤ b ∨ b + N ≤ a) → done (.copy core q) N (fun j => .spad core (b + j)) (fun j => BitVec.ofNat 8 (fld
          (convert (mnat spad (a + j / h * w) w) (NTy.ofCode 0 ta) (NTy.ofCode 0 tb) (rndOf (fld (cConv c.k) 8 2)) false).1
          (8 * (j % h)) 8)))
      ∧ (one → 0 < n → kSrc c.k = spadBase + a → s.ownRange core a n → kKind c.k = 8 → kDst c.k = wstBase + b →
        b + n ≤ 0xA000000 → done (.wstore core q) n (fun j => .wst (dieOf (clusterOf core)) (b + j)) (fun j => mine (a + j)))
      ∧ (one → kKind c.k = 7 → fillOk c.k = true → kDst c.k = spadBase + b → s.ownRange core b n →
        done (.fill core q) n (fun j => .spad core (b + j)) (fun j => BitVec.ofNat 8 (fld (cPattern c.k) (8 * (j % cEsz c.k)) 8)))
      ∧ (∀ i x y, kKind c.k = 6 → n = 1 → kSrc c.k = spadBase + a → s.ownRange core a 4 → i = mnat spad a 4 →
        i < pgLen c.k → kAux c.k = spadBase + x → s.ownRange core (x + 8 * i) 8 →
        mnat spad (x + 8 * i) 8 = 2 ^ 63 + (spadBase + y) → (spadBase + y) % pgSize c.k = 0 →
        s.ownRange core y (pgSize c.k) → kDst c.k = spadBase + b → s.ownRange core b (pgSize c.k) →
        (y + pgSize c.k ≤ b ∨ b + pgSize c.k ≤ y) →
        done (.pgath core q) (pgSize c.k) (fun j => .spad core (b + j)) (fun j => mine (y + j)))
      ∧ (∀ id ls xs, one → kKind c.k = 2 → kBit0 c.k = false → kSrc c.k = spadBase + a → s.ownRange core a (8 + 2 * n) → id < 16 →
        mnat spad a 8 = n + 2 ^ 32 * id → lget (s.strand core).codeTab id none = some ls → xs.length = n →
        streamIs spad (a + 8) ls xs 0 → kDst c.k = spadBase + b → s.ownRange core b n → (a + 8 + 2 * n ≤ b ∨ b + n ≤ a + 8) →
        done (.copyz core q) n (fun j => .spad core (b + j)) (fun j => BitVec.ofNat 8 (lget xs j 0))))
  ∧ (∀ (s : State) (core q kd x : Nat) (i : Instr) (l l' : List CCmd) (c : CCmd), s.shape = true → core < 128 →
      s.upsets = [] → s.copyNext core q l c l' → c.ahead = [] → c.todo = none → isMulti c.k = false → kKind c.k = kd →
      (kd, i) ∈ [(3, Instr.gathl core q), (4, .scatl core q), (5, .motion core q)] → kAux c.k = spadBase + x →
      s.ownRange core x (4 * lE c.k) →
      let spad := (s.core core).spad
      let ent (e : Nat) : Nat := mnat spad (x + 4 * e) 4
      let moves := listMoves c.k ent
      let P := lP c.k
      (∀ e, e < lE c.k → entryOk c.k (ent e) = true) →
      (∀ p ∈ moves, ∃ b, p.2 = spadBase + b ∧ s.ownRange core b P ∧ (b + P ≤ x ∨ x + 4 * lE c.k ≤ b)
        ∧ ∀ r ∈ moves, ∀ a, r.1 = some a → ∃ o, a = spadBase + o ∧ s.ownRange core o P ∧ (o + P ≤ b ∨ b + P ≤ o)) →
      moves.Pairwise (fun p r => p.2 + P ≤ r.2 ∨ r.2 + P ≤ p.2) →
      ∃ t, exec i s = .next t
        ∧ (t.core core).cq q = l ++ { c with started := true, done := true, bytes := moves.length * P } :: l'
        ∧ (∀ p ∈ moves, ∀ j, j < P → mget (t.core core).spad (p.2 - spadBase + j) =
          match p.1 with
          | some a => mget spad (a - spadBase + j)
          | none => 0#8)
        ∧ ∀ p, (∀ r ∈ moves, ∀ j, j < P → p ≠ .spad core (r.2 - spadBase + j)) → t.byteAt p = s.byteAt p)

/-- COMMAND_COMPLETION of the oldest command of a copy or Girder queue whose payload is in place (R248, R264, R278): it
leaves the queue, and the actions that it has not done yet, counted by a, are done: a signal word with EARLY is stored, BSUB
subtracts the byte count, its events are set and its token counts one less; signals without EARLY and counters wait for the
commit, as a delta report does (R288). A copy command whose payload is not in place does not complete. -/
def Obligations.Completions : Prop :=
  (∀ (s : State) (core q n a : Nat) (c : CCmd) (g : GCmd) (l : List CCmd) (l' : List GEntry) (copy : Bool),
      s.shape = true → s.upsets = [] → core < 128 → q < 2 → n < 32 →
      (if copy then (s.core core).cq q = c :: l ∧ c.done = true ∧ c.acted = a
        else (s.girder n).queue = .cmd g :: l' ∧ g.core = core ∧ g.started = true ∧ g.done = true ∧ g.acted = a
          ∧ (gDelta g.k = true → (lget (s.strand core).qs.q 4 []).length < 16)) →
      let k := if copy then c.k else g.k
      let bytes := if copy then c.bytes else g.bytes
      let delta := !copy && gDelta k
      let x := s.strand core
      let spad := (s.core core).spad
      let early := kSgw k && kEarly k && a == 0
      let bsub := kBsub k && decide (a ≤ 1)
      ∃ t, exec (.commandCompletion (if copy then .copy core q else .girder n)) s = .next t
        ∧ (if copy then (t.core core).cq q = l ∧ (t.core core).cq (1 - q) = (s.core core).cq (1 - q)
          else ∀ y : GCmd, .cmd y ∈ (t.girder n).queue ↔ .cmd y ∈ l')
        ∧ (t.strand core).regs.e = (if kEvs k && decide (a ≤ 2) then x.regs.e ||| kSigmask k else x.regs.e)
        ∧ (∀ w, (t.strand core).tokCount w = x.tokCount w - if kTv k && decide (a ≤ 3) && kTok k == w then 1 else 0)
        ∧ (t.strand core).held = x.held ++ (if delta then [.delta (hw k 54) (kCount k 3) g.d] else [])
          ++ (if kSgw k && !kEarly k then [.sgw (kSigOff k) (kSigVal k)] else [])
          ++ (if kDec k then [.dec (kDecId k)] else [])
        ∧ lget (t.strand core).qs.q 4 [] = lget x.qs.q 4 [] ++ (if delta then [some (BitVec.ofNat 64 g.d)] else [])
        ∧ (bsub = false → early = true → mnat (t.core core).spad (kSigOff k) 8 = kSigVal k)
        ∧ (bsub = true → early = false →
          mnat (t.core core).spad (kBarOff k) 16 = barSubtract (mnat spad (kBarOff k) 16) bytes % 2 ^ 128)
        ∧ (∀ o, (early && decide (kSigOff k ≤ o) && decide (o < kSigOff k + 8)) = false →
          (bsub && decide (kBarOff k ≤ o) && decide (o < kBarOff k + 16)) = false → mget (t.core core).spad o = mget spad o))
  ∧ (∀ (s : State) (core q : Nat) (c : CCmd) (l : List CCmd), (s.core core).cq q = c :: l → c.done = false →
      exec (.commandCompletion (.copy core q)) s = .next s)

/-- A Girder command that may start runs whatever its kind (GEMM, CONV, CHAIN, ACCRD, ACCZ, WLOAD) and is marked done
(R278); a fault met while it runs carries the MISSUE's text offset and keeps what was written before it (R279), but an error
that it cannot correct is a fault only where its window has run again already, or cannot (R290). GIRDER_MIGRATION runs a
command that may migrate from its operands on another Girder of the stack domain once it has waited (R292). That a payload
runs in one step is assumption 9, and that a migration reads its operands as they stand then assumption 134: the model's
choices. -/
def Obligations.GirderPayloads : Prop :=
  ∀ (s0 s1 s2 : State) (n kd b d : Nat) (i : Instr) (l : List GCmd) (c : GCmd) (l' : List GEntry), s0.shape = true →
    s0.upsets = [] → s1.upsets = [] → s2.upsets = [] → s0.girNext n l c l' →
    let s := { s0 with cur := c.core }
    let g := s0.girder n
    let run := s.runCmd n c false (g.buf (gSB c.k))
    (kKind c.k = kd →
      (kd, i) ∈ [(1, Instr.gemm n), (2, .conv n), (3, .chain n), (4, .accrd n), (5, .accz n), (6, .wload n)] →
      (run = .ok (b, d, s1) → exec i s0 = .next (s1.gDone n c b d false))
      ∧ (∀ f, c.kslot = none → f.code ≠ .memoryUe ∨ s0.mayReplay n c = false →
        let f' := { f with engine := 4, precise := false, text := c.text, ckind := kd, cqueue := 2 }
        (run = .error (.fault f) → exec i s0 = .next (takeFault f' s))
        ∧ (run = .error (.partly s1 f) → exec i s0 = .next (takeFault f' s1))))
    ∧ (∀ w m target, c.mig = true → kKind c.k = 1 ∨ kKind c.k = 2 → g.migWait ≠ 0 → c.since + g.migWait ≤ s0.now →
      s0.migTarget n target = true → lget g.sbLoad (gSB c.k) none = some w → s.loadBuf { w with ahead := [] } = .ok (m, s1) →
      s1.runGemm n c m true = .ok s2 →
      exec (.girderMigration n l.length target) s0 = .next (s2.gDone n c 0 0 true))
    ∧ (∀ target, target = n ∨ stackOf target ≠ stackOf n → exec (.girderMigration n l.length target) s0 = .next s0)
    ∧ (s0.now < c.since + g.migWait → ∀ target, exec (.girderMigration n l.length target) s0 = .next s0)

/-- What Girder commands leave, element by element, with their memory operands in the own scratchpad: WLOAD fills a buffer
(R282), GEMM and CONV without scale words accumulate in ascending blocks (R283, R284), CHAIN leaves a boundary in its target
bank and zeros after it (R306), ACCZ zeroes rows (R285), and a plain ACCRD of fp32 writes rows and may clear them (R286).
That a payload runs in one step is the model's choice (assumption 9). -/
def Obligations.GirderResults : Prop :=
  ∀ (s : State) (n : Nat) (l : List GCmd) (c : GCmd) (l' : List GEntry), s.shape = true → s.upsets = [] →
    s.girNext n l c l' → c.core < 128 → c.ahead = [] →
    let k := c.k
    let spad := (s.core c.core).spad
    let bank (t : State) (j : Nat) : Memory := lget (t.girder n).banks j []
    (kKind k = 5 → (s.girder n).banks.length = 4 → ∃ t, exec (.accz n) s = .next t
      ∧ (∀ r m, r < 256 → m < 256 → bankGet (bank t (gBank k)) r m =
        if gRow k ≤ r ∧ r < gRow k + kCount k 1 then 0 else bankGet (bank s (gBank k)) r m)
      ∧ (∀ j, j ≠ gBank k → bank t j = bank s j) ∧ ∀ p, t.byteAt p = s.byteAt p)
    ∧ (∀ o p x, kKind k = 6 → (s.girder n).sbs.length = 2 → (s.girder n).sbScale.length = 2 →
      (s.girder n).sbLoad.length = 2 → 1 ≤ wRows k → 1 ≤ wRowBytes k → kSrc k = spadBase + o → kSS k 1 = (p : Nat) →
      s.ownRange c.core o ((wRows k - 1) * p + wRowBytes k) →
      kAux k = spadBase + x → s.ownRange c.core x (2 * (wNB k * wCols k)) → ∃ t, exec (.wload n) s = .next t
      ∧ (∀ r j, r < wRows k → j < wRowBytes k →
        mget ((t.girder n).buf (gSB k)).bytes (r * wRowBytes k + j) = mget spad (o + r * p + j))
      ∧ (∀ r j, r < wNB k → j < wCols k →
        ((t.girder n).buf (gSB k)).scaleAt r j = mnat spad (x + 2 * (j * wNB k + r)) 2)
      ∧ ((t.girder n).buf (gSB k)).k = k ∧ (∀ j, bank t j = bank s j) ∧ ∀ q, t.byteAt q = s.byteAt q)
    ∧ (∀ (i : Instr) (o : Nat → Nat → Nat), (kKind k = 1 ∧ i = .gemm n) ∨ (kKind k = 2 ∧ i = .conv n) →
      (s.girder n).banks.length = 4 → fASM c.fmt = 0 → fBSM c.fmt = 0 → gRow k + gM k ≤ 256 → gN k ≤ 256 →
      let h := halfBytes (fAT c.fmt)
      (∀ m e, m < gM k → e < gK k → (aPlace c m e).1 = ((spadBase + o m e : Nat) : Int)
        ∧ s.ownRange c.core (o m e) (((aPlace c m e).2 * h + h + 1) / 2)) →
      let a (m e : Nat) : Nat := packedAt spad h (o m e) (aPlace c m e).2
      ∃ t, exec i s = .next t
        ∧ (∀ m j, m < gM k → j < gN k → bankGet (bank t (gBank k)) (gRow k + m) j =
          (cell (fAT c.fmt) (fBT c.fmt) (fBlock c.fmt) (gK k) (a m) (fun e =>
            ((s.girder n).buf (gSB k)).get (fBT c.fmt) e j) (fun _ => none) (fun _ => none)
            (if gZero k then 0 else bankGet (bank s (gBank k)) (gRow k + m) j)).1 % 2 ^ 32)
        ∧ (∀ r j, j < 256 → (r < gRow k ∨ gRow k + gM k ≤ r ∨ gN k ≤ j) →
          bankGet (bank t (gBank k)) r j = bankGet (bank s (gBank k)) r j)
        ∧ (∀ j, j ≠ gBank k → bank t j = bank s j) ∧ ∀ p, t.byteAt p = s.byteAt p)
    ∧ (∀ (st : ChStep) (o x : Nat) (r : Nat → Nat), kKind k = 3 → c.ch = some st → (s.girder n).banks.length = 4 → st.dst < 4 →
      let hb := halfBytes (fBT c.fmt)
      let ha := halfBytes (fAT c.fmt)
      let row := st.pin * st.ik
      st.addr = spadBase + o → s.ownRange c.core o ((st.coreElems * hb + 1) / 2) →
      (st.step = 0 → ∀ i, i < st.bt → (kSrc k : Int) + (i : Int) * kSS k 1 = ((spadBase + r i : Nat) : Int)
        ∧ s.ownRange c.core (r i) ((row * ha + 1) / 2)) →
      (st.step = 0 → fASM c.fmt = 2 → kAux k = spadBase + x ∧ s.ownRange c.core x 2) →
      let old (e : Nat) : Nat :=
        if st.step = 0 then (if e < st.bt * row then packedAt spad ha (r (e / row)) (e % row) else 0)
        else bankGet (bank s st.src) (e / 256) (e % 256)
      let g (i : Nat) : Nat := if i < st.coreElems then packedAt spad hb o i else 0
      let sx := if st.step = 0 ∧ fASM c.fmt = 2 then some (mnat spad x 2) else none
      ∃ t, exec (.chain n) s = .next t
        ∧ (∀ e, e < 65536 → bankGet (bank t st.dst) (e / 256) (e % 256) =
          if e < st.count then (st.elem c.fmt old g sx e).1 % 2 ^ 32 else 0)
        ∧ (∀ j, j ≠ st.dst → bank t j = bank s j) ∧ ∀ p, t.byteAt p = s.byteAt p)
    ∧ (∀ o p, kKind k = 4 → (s.girder n).banks.length = 4 → fRT c.fmt = 8 → fASM c.fmt = 0 → gAct k = 0 → gBias k = false →
      gZmc k = false → gDelta k = false → 1 ≤ kCount k 1 → 1 ≤ gN k → gN k ≤ 256 → kDst k = spadBase + o →
      kDS k 1 = (p : Nat) → 4 * gN k ≤ p → s.ownRange c.core o ((kCount k 1 - 1) * p + 4 * gN k) →
      ∃ t, exec (.accrd n) s = .next t
        ∧ (∀ m j, m < kCount k 1 → j < gN k →
          mnat (t.core c.core).spad (o + m * p + 4 * j) 4 = bankGet (bank s (gBank k)) (gRow k + m) j)
        ∧ (∀ q, (∀ m j, m < kCount k 1 → j < 4 * gN k → q ≠ .spad c.core (o + m * p + j)) → t.byteAt q = s.byteAt q)
        ∧ (∀ m j, m < kCount k 1 → j < gN k → bankGet (bank t (gBank k)) (gRow k + m) j =
          if gClear k then 0 else bankGet (bank s (gBank k)) (gRow k + m) j))

/-! ## Launches, streams and the management side -/

/-- LAUNCH_MAILBOX outside its limits or where the mailbox reads nonzero is refused with a record; another is held until the
scheduler copies the record it names, in any later step or at once (R351); before READY it is an Unsupported Request (R433).
A record that keeps R348 to R350 enters the pool, or lowers its counter; one with a dependence raises the counter and waits
while it is not 0 (R354). SPILL_REFILL returns spilled records in order (R363), QUOTA_EVALUATION comes every 10 µs (R358),
and IMAGE_REGISTER registers an image or refuses it whole (R77), from step 7 of the boot sequence on (R431). What a refusal
record carries beside its cause is assumption 52, which header values refuse an image assumption 53, the management core's
mailbox 55, when a held launch enters 57, and that a record which cannot be read is refused 126: the model's readings. -/
def Obligations.LaunchRecords : Prop :=
  (∀ (s : State) (fn val : Nat), fn ≤ 17 → s.power.ready = true → s.host.lmbx.length = 18 → s.upsets = [] →
    let r := mnat s.home val 64
    let ok : Prop := val < 2 ^ 64 ∧ fld val 48 16 = 0 ∧ val % 64 = 0 ∧ (lget s.host.lmbx fn none).getD 0 = 0
    let s' := s.modHost (fun h => { h with lmbx := h.lmbx.set fn none })
    (ok → ∃ t, exec (.launchMailbox fn val) s = .next t ∧
      ((val ≠ 0 ∧ t = s.modHost (fun h => { h with lmbx := h.lmbx.set fn (some val) }))
      ∨ t = if s.poisonedPa val then (s'.poison val).refuse 0 0 0 val 0
          else if fn < 17 ∧ (s.ctx (lrCtx r)).owner ≠ fn then s'.refuse 0 (lrCtx r) (lrImage r) val 0
          else s'.record r 0 val (fn == 17)))
    ∧ (¬ ok → exec (.launchMailbox fn val) s = .next (s.refuse 0 0 0 (val % 2 ^ 64) 0)))
  ∧ (∀ (s : State) (fn val : Nat), fn ≤ 17 → s.power.ready = false → s.power.linkNext = false →
      ∃ t, exec (.launchMailbox fn val) s = .next t ∧ t.host = { s.host with outbox := s.host.outbox ++ [(0x101, 0)] }
        ∧ t.sched = s.sched)
  ∧ (∀ (s : State) (r src addr : Nat) (mgmt : Bool),
    let t := s.record r src addr mgmt
    let k := (s.ctx (lrCtx r)).dbase + lrDepId r
    let n : Int := (lrDepInit r : Nat)
    (s.recordOk r src mgmt = false → t = s.refuse src (lrCtx r) (lrImage r) addr 0)
    ∧ (s.recordOk r src mgmt = true → lrKind r = 2 →
      (s.counter k - n < -(2 ^ 23) → t.counter k = s.counter k ∧ t.sched.recs = s.sched.recs
        ∧ t.sched.drop = min 0xFFFF (s.sched.drop + 1))
      ∧ (-(2 ^ 23) ≤ s.counter k - n → t.counter k = s.counter k - n
        ∧ (s.counter k - n ≠ 0 → t.sched.recs = s.sched.recs)
        ∧ (s.counter k - n = 0 → ∀ x ∈ s.sched.recs, x.waiting = true → x.dep = some k →
          { x with waiting := false, readyAt := s.now } ∈ t.sched.recs)))
    ∧ (s.recordOk r src mgmt = true → lrKind r = 1 → 256 < s.freeRecs → ∃ x, t.sched.recs = s.sched.recs ++ [x]
      ∧ x.ctx = lrCtx r ∧ x.image = lrImage r ∧ x.stage = lrStage r ∧ x.arg = fld r 128 64 ∧ x.v0 = fld r 192 64
      ∧ x.jaddr = fld r 256 64 ∧ x.src = src ∧ x.readyAt = s.now ∧ x.spilled = false
      ∧ x.waiting = (lrDepV r && decide (s.counter k + n ≠ 0)) ∧ x.dep = (if lrDepV r then some k else none)
      ∧ (lrDepV r = true → t.counter k = s.counter k + n)))
  ∧ (∀ s : State,
    (s.freeRecs ≤ 256 → exec .spillRefill s = .next s)
    ∧ (∀ x l l', 256 < s.freeRecs → s.sched.recs = l ++ x :: l' → x.spilled = true → (∀ y ∈ l, y.spilled = false) →
      ∃ t, exec .spillRefill s = .next t ∧ t.sched.recs = l ++ { x with spilled := false } :: l')
    ∧ (∀ x l, 256 < s.freeRecs → (∀ y ∈ s.sched.recs, y.spilled = false) → s.sched.heldLaunch = x :: l →
      ∃ t, exec .spillRefill s = .next t ∧ t.sched.heldLaunch = l ∧ t.sched.recs =
        s.sched.recs ++ [{ x with dep := none, waiting := false, readyAt := s.now, spilled := false }])
    ∧ (s.now < s.sched.nextQuota → exec .quotaEvaluation s = .next s)
    ∧ (s.sched.nextQuota ≤ s.now → ∃ t, exec .quotaEvaluation s = .next t ∧ t.sched.nextQuota = s.sched.nextQuota + 23000
      ∧ t.sched.recs = s.sched.recs ∧ ∀ c i q x, c < s.sched.ctxs.length → (s.ctx c).quotas[i]? = some (some q) →
        s.stageOf c i = some x → (t.ctx c).quotas[i]? = some (some (min x.maxc (max 1 (s.readyOf c i).length)))))
  ∧ (∀ (s : State) (handle : Nat) (ctxs bytes : List Nat), (∀ b ∈ bytes, b < 256) →
    (s.power.ready = false → exec (.imageRegister handle ctxs bytes) s = .next s) ∧ (s.power.ready = true →
    let h := handle % 2 ^ 32
    let text := (imgSection bytes 1).getD []
    (imgOk bytes = true → ∃ t i, exec (.imageRegister handle ctxs bytes) s = .next t ∧ t.imageOf h = some i
      ∧ i.ctxs = ctxs ∧ i.text.length = text.length / 4
      ∧ (∀ j, j < i.text.length → lget i.text j 0 = imgNat text (4 * j) 4)
      ∧ i.data = (imgSection bytes 2).getD [] ∧ i.vregs = imgNat bytes 8 4 ∧ i.scratch = imgNat bytes 16 4
      ∧ ∀ g, g ≠ h → t.imageOf g = s.imageOf g)
    ∧ (imgOk bytes = false →
      exec (.imageRegister handle ctxs bytes) s = .next (s.noteRecord 3 (ctxs.headD 0) h 0 0 0))))

/-- DISPATCH places the task picked at the first level that has an act (R356): a ready and eligible record of that level, on
cores that may take it and lie together (R355, R359); every member's boot mailbox is written in one step, and the banks
named are the gang's and hold zeros (R271). A level's victims have not committed and lie four levels lower (R361).
BOOT_MAILBOX starts a core that is withdrawn from the scheduler, is refused by another (R364), and is an Unsupported Request
before READY (R433). STRAND_START starts a strand with its image resident, its data in place and its registers set (R99,
R365, R366). That a level's placements come before its pre-emption is assumption 59, what a pinned service is assumption 60,
and the start at an entry offset that names no word assumption 140: the model's readings. -/
def Obligations.Placements : Prop :=
  (∀ (s : State),
    (s.power.ready = false → exec .dispatch s = .next s)
    ∧ ((∀ lv, lv < 24 → s.serve lv = none) → exec .dispatch s = .next s)
    ∧ (∀ lv x ks s', s.power.ready = true → lv < 24 → (∀ j, j < lv → s.serve j = none) → s.pickAt lv = some (x, s') →
      s.coresFor x = some ks → exec .dispatch s = .next (s'.place x ks lv))
    ∧ (∀ lv x s', s.pickAt lv = some (x, s') → x ∈ s.sched.recs ∧ s.eligible x = true ∧ s.level x = lv
      ∧ s'.sched.recs = s.sched.recs ∧ ∃ l, s.coresFor x = some l)
    ∧ (∀ x i ks, s.imageOf x.image = some i → x.onCore = none → 1 ≤ x.n → s.coresFor x = some ks →
      ks.length = x.n ∧ ks.Nodup ∧ (∀ k ∈ ks, k < 128 ∧ s.coreOk x i.scratch k = true
        ∧ together x.place (ks.headD 0) k = true) ∧ s.banksFree x.banks (clusterOf (ks.headD 0)) = true)
    ∧ (∀ x ks lv, s.shape = true → ks.Nodup → ks ≠ [] → (∀ k ∈ ks, k < 128) →
      let t := s.place x ks lv
      let n := clusterOf (ks.headD 0)
      t.sched.recs = s.sched.recs.erase x ∧ (∃ g, t.sched.gangs = s.sched.gangs ++ [g] ∧ g.id = s.sched.nextGang
        ∧ g.task = { x with onCore := none } ∧ g.members.map (·.core) = ks ∧ g.level = lv ∧ g.committed = false)
      ∧ (∀ m, m < ks.length → let c := t.core (lget ks m 0)
        c.mbImage = x.image ∧ c.mbArg = x.arg ∧ c.ord.starting = true ∧ c.ord.live = false ∧ c.ord.member = m
        ∧ c.ord.gang = s.sched.nextGang)
      ∧ (∀ k, k ∉ ks → t.core k = s.core k)
      ∧ (∀ i, i < (s.girder n).owner.length → lget (t.girder n).owner i none =
        if bit x.banks i then some s.sched.nextGang else lget (s.girder n).owner i none)
      ∧ ∀ i, i < (s.girder n).banks.length → bit x.banks i = true → lget (t.girder n).banks i [] = [])
    ∧ (∀ lv, ∀ g ∈ s.victims lv, g ∈ s.sched.gangs ∧ g.committed = false ∧ lv + 4 ≤ g.level))
  ∧ (∀ (s : State) (core image arg : Nat), s.shape = true → core < 128 → s.power.ready = true →
    ((s.core core).pinned = false → exec (.bootMailbox core image arg) s = .next s)
    ∧ (∀ s' : State, s'.power.ready = false → s'.power.linkNext = false →
      exec (.bootMailbox core image arg) s' = .next s'.unsupported)
    ∧ (∀ i, (s.core core).pinned = true → ({ s.core core with pinned := false } : Core).idle = true →
      s.imageOf (image % 2 ^ 32) = some i → i.entry.isSome = true → ∃ t, exec (.bootMailbox core image arg) s = .next t
        ∧ (t.core core).ord.starting = true ∧ (t.core core).mbImage = image % 2 ^ 32 ∧ (t.core core).mbArg = arg % 2 ^ 64
        ∧ ∀ k, k ≠ core → t.core k = s.core k))
  ∧ (∀ (s : State) (core : Nat) (i : Image), s.shape = true → core < 128 → s.upsets = [] →
    let x := (s.core core).ord
    ((x.starting = false ∨ (s.core core).gated = true) → exec (.strandStart core) s = .next s)
    ∧ (x.starting = true → (s.core core).gated = false → (s.cluster (clusterOf core)).gated = false →
      s.imageOf x.task.image = some i → x.task.plen = 0 → ∃ t, exec (.strandStart core) s = .next t
        ∧ (let y := (t.core core).ord
          y.live = true ∧ y.starting = false ∧ y.gang = x.gang ∧ y.member = x.member ∧ y.allot = i.scratch
          ∧ (∀ e, (y.eng e).pc = s.entryOf x.task i ∧ (y.eng e).walk = 0)
          ∧ (∀ n, n < 32 → lget y.regs.s n 0#64 =
            if n = 1 then BitVec.ofNat 64 x.task.arg else if n = 2 then BitVec.ofNat 64 x.task.v0
            else if n = 3 then BitVec.ofNat 64 (256 * x.task.n + x.member)
            else if n = 4 then BitVec.ofNat 64 x.task.s4 else 0#64)
          ∧ y.slipw = (if i.slip = 0 then 256 else i.slip) ∧ y.lease = .none ∧ y.held = [])
        ∧ i ∈ (t.core core).imem
        ∧ (∀ o, mget (t.core core).spad o =
          if o < i.data.length then BitVec.ofNat 8 (lget i.data o 0) else mget (s.core core).spad o)))

/-- Codec streams: BITSTREAM_WRITE that overfills the buffer is refused and noted (R326); FRAME_DELIVERY gives a frame the
next number and decides its layer 0, with the bytes it consumed, its entry and its tile states within reach (R331, R334);
DECODE_ERROR marks a stream that is not paused, which then passes over bytes of its bitstream and looks for a random-access
point, and sends the message of the stream's own vector (R327, R422); LAYER_DECISION decides a deeper layer for the frame
that is next for it (R338); CMU_DEFERRED_WRITE holds a task's write until its commit (R344); STREAM_CREATE takes the first
engine with room, and STREAM_RECLAIM gives it back (R325, R333). Which engine takes a stream is assumption 91, and how many
bytes an error passes over assumption 109: the model's choices. -/
def Obligations.Streams : Prop :=
  (∀ (s : State) (i : Nat) (x : Stream), s.stream i = some x →
    (∀ val, let room := (val % 2 ^ 32 + 2 ^ 32 - x.bsRead) % 2 ^ 32
      ∃ t, exec (.bitstreamWrite i val) s = .next t ∧ (∀ j, j ≠ i → t.stream j = s.stream j)
        ∧ t.stream i = some (if 2 ^ x.desc.bslog < room then { x with ovr := true } else { x with bsWrite := val % 2 ^ 32 }))
    ∧ (∀ data, let f := if x.delivered then x.frame + 1 else 0
      (s.canDeliver x f data = false → exec (.frameDelivery i data) s = .next s)
      ∧ (∀ l, s.upsets = [] → s.canDeliver x f data = true → s.entryBad x f data = none →
        s.bitstream x data.consumed = .ok s → s.readStates x 0 f = .ok s → x.desc.layers[0]? = some l → ∃ t y, exec (.frameDelivery i data) s = .next t
        ∧ t.stream i = some y ∧ y.frame = f ∧ y.delivered = true ∧ y.cold = false ∧ y.err = x.err ∧ y.resync = false
        ∧ y.bsRead = (x.bsRead + data.consumed) % 2 ^ 32 ∧ (y.decOf 0 f).isSome = true))
    ∧ (x.paused = true → exec (.decodeError i) s = .next s)
    ∧ (x.paused = false → ∃ t n, exec (.decodeError i) s = .next t ∧ n ≤ x.avail
      ∧ t.stream i = some { x with err := true, cold := true, resync := true, bsRead := (x.bsRead + n) % 2 ^ 32 }
      ∧ (∀ j, j ≠ i → t.stream j = s.stream j) ∧ t.host = (s.msix (s.streamVec x)).host)
    ∧ (∀ layer, (x.nextFor layer = none → exec (.layerDecision i layer) s = .next s)
      ∧ (∀ f l b, x.nextFor layer = some f → x.desc.layers[layer]? = some l → x.desc.layers[layer - 1]? = some b →
        (s.readStates x layer f).isOk = true →
        ∃ t y, exec (.layerDecision i layer) s = .next t ∧ t.stream i = some y ∧ (y.decOf layer f).isSome = true
          ∧ (x.decOf layer f).isNone = true ∧ ∃ d, d ∈ x.decs ∧ d.layer + 1 = layer ∧ d.frame = f
            ∧ d.reported b.rpt = true))
    ∧ (∃ t, exec (.streamReclaim i) s = .next t ∧ t.stream i = none ∧ (∀ j, j ≠ i → t.stream j = s.stream j)
      ∧ (t.ctx x.ctx).stream ≠ some i))
  ∧ (∀ (s : State) (i : Nat), s.stream i = none → ∀ data layer, exec (.frameDelivery i data) s = .next s
      ∧ exec (.decodeError i) s = .next s ∧ exec (.layerDecision i layer) s = .next s
      ∧ exec (.streamReclaim i) s = .next s)
  ∧ (∀ (s : State) (core idx val : Nat), core < s.cores.length → (s.strand core).live = true →
    ((s.strand core).commit ≠ .done → 0x400 ≤ idx → idx < 0x480 → (s.ctx (s.strand core).task.ctx).stream ≠ none → ∃ t,
      exec (.cmuDeferredWrite core idx val) s = .next t
        ∧ (t.strand core).held = (s.strand core).held ++ [.cmu idx val] ∧ t.streams = s.streams)
    ∧ ((idx < 0x400 ∨ 0x480 ≤ idx ∨ (s.strand core).commit = .done) → exec (.cmuDeferredWrite core idx val) s = .next s))
  ∧ (∀ (s : State) (i c e : Nat) (d : StreamDesc), i < 384 → c < s.sched.ctxs.length → c < 1024 → streamOk d = true →
    s.stream i = none → (s.ctx c).stream = none → e < 16 → s.slotsUsed e + cdiv (d.w * d.h * d.fps) 62668800 ≤ 24 →
    (∀ j, j < e → 24 < s.slotsUsed j + cdiv (d.w * d.h * d.fps) 62668800) → ∃ t, exec (.streamCreate i c d) s = .next t
      ∧ (∃ x, t.stream i = some x ∧ x.ctx = c ∧ x.desc = d ∧ x.engine = e ∧ x.delivered = false ∧ x.cold = true)
      ∧ (t.ctx c).stream = some i ∧ ∀ j, j ≠ i → t.stream j = s.stream j)
  ∧ (∀ (s : State) (i c : Nat) (d : StreamDesc), streamOk d = false → exec (.streamCreate i c d) s = .next s)

/-- Registers and services of the management path: SLIPW_WRITE clamps the slip bound, which counts from the cycle after
(R82); KEY_CTL_WRITE notes EN (R323); ERR_CORR_CLR clears the correction counters (R399); MANAGEMENT_PATH_WRITE lets the
lease, aging, quantum and watchdog limits take legal values only (R275, R377, R386). DEBUG_STOP holds a strand that has not
committed and DEBUG_RESUME lets it go on (R117). PAGE_RETIRE retires a page once (R381); PINNED_SERVICE_WITHDRAWAL withdraws
a core and gives it back (R364); PREDICTIVE_FAILURE, once an array's count has crossed its threshold, raises the voltage
below nominal and holds off what lowers any domain, and at nominal fences the core; RETURN_TO_SERVICE unfences units (R382,
R401); WST_REFRESH_SLOT takes the refresh slots in the calendar's order (R226). What returns with a unit is assumption 92,
retirement 93, the thresholds and the turns of the voltage control 94 and 137, and that time goes on to the slot 95: the
model's readings. -/
def Obligations.SystemControl : Prop :=
  (∀ (s : State) (core val : Nat), s.shape = true → core < 128 →
    (∃ t, exec (.slipwWrite core val) s = .next t ∧ (t.strand core).slipw = max 16 (min 4096 (val % 8192))
      ∧ (t.strand core).bound s.now = (s.strand core).bound s.now ∧ (t.strand core).bound (s.now + 1) = (t.strand core).slipw
      ∧ ∀ k, k ≠ core → t.core k = s.core k)
    ∧ (∃ t, exec (.keyCtlWrite core val) s = .next t ∧ (t.core core).keyEn = bit val 0 ∧ t.strand core = s.strand core)
    ∧ (∃ t, exec (.errCorrClr core) s = .next t ∧ (let c := t.core core
        c.spadCorr = 0 ∧ c.cacheCorr = 0 ∧ c.kcorr = 0 ∧ c.tcorr = 0 ∧ c.vcorr = 0 ∧ c.scorr = 0
        ∧ c.strand = s.strand core) ∧ (t.stack (stackOf (clusterOf core))).hbmCorr = 0)
    ∧ ((s.strand core).live = true → (s.strand core).commit ≠ .done → ∃ t, exec (.debugStop core) s = .next t
      ∧ (∀ e, t.mayAct core e = false) ∧ (t.strand core).hz = [] ∧ (t.strand core).regs = (s.strand core).regs)
    ∧ ((s.strand core).commit = .done → exec (.debugStop core) s = .next s)
    ∧ (∃ t, exec (.debugResume core) s = .next t ∧ (t.strand core).stopped = false
      ∧ (t.strand core).regs = (s.strand core).regs)
    ∧ (∀ back, ∃ t, exec (.pinnedServiceWithdrawal core back) s = .next t ∧ (t.core core).pinned = !back
      ∧ (t.core core).idle = (back && ({ s.core core with pinned := false } : Core).idle)))
  ∧ (∀ (s : State) (unit val : Nat), s.shape = true → unit < 32 → val < 2 ^ 32 →
    (val < 128 → ∃ t, exec (.managementPathWrite unit 0x200 val) s = .next t ∧ (t.girder unit).leaseLen =
      if 1 ≤ val ∧ val ≤ 64 then val else (s.girder unit).leaseLen)
    ∧ (∃ t, exec (.managementPathWrite unit 0x201 val) s = .next t ∧ (t.girder unit).leaseCyc =
      if 1 ≤ val ∧ val < 1024 then (s.girder unit).leaseCyc else val)
    ∧ (∃ t, exec (.managementPathWrite unit 0x202 val) s = .next t ∧ (t.girder unit).migWait = val)
    ∧ (∃ t, exec (.managementPathWrite unit 0x603 val) s = .next t ∧ t.sched.age = if val = 0 then s.sched.age else val)
    ∧ (∃ t, exec (.managementPathWrite unit 0x604 val) s = .next t
      ∧ t.sched.quant = if val = 0 then s.sched.quant else val)
    ∧ (∃ t, exec (.managementPathWrite unit 0x700 val) s = .next t
      ∧ t.err.wdog = if val < 65536 then s.err.wdog else val))
  ∧ (∀ (s : State) (page : Nat), page ∈ s.err.poisoned → page ∉ s.err.retired → ∃ t, exec (.pageRetire page) s = .next t
      ∧ t.err.retired = page :: s.err.retired ∧ t.err.poisoned = s.err.poisoned)
  ∧ (∀ (s : State) (page : Nat), page ∉ s.err.poisoned → exec (.pageRetire page) s = .next s)
  ∧ (∀ (s : State) (u : UnitId),
    (s.failing u = false → exec (.predictiveFailure u) s = .next s)
    ∧ (∀ n, s.failing u = true → s.err.below u = n + 1 → ∃ t, exec (.predictiveFailure u) s = .next t ∧ t.err.below u = n
      ∧ (∀ w, w ≠ u → t.err.below w = s.err.below w) ∧ (∀ w, t.undervolt w = t) ∧ t.failing u = false
      ∧ t.cores = s.cores ∧ t.clusters = s.clusters)
    ∧ (∀ k, u = .core k → k < s.cores.length → s.failing u = true → s.err.below u = 0 → ∃ t, exec (.predictiveFailure u) s = .next t
      ∧ (t.core k).fenced = true)
    ∧ (∀ k, u = .core k → k < s.cores.length → ∃ t, exec (.returnToService u) s = .next t ∧ (t.core k).fenced = false
      ∧ ∀ j, j ≠ k → t.core j = s.core j)
    ∧ (∀ n, u = .girder n → n < s.clusters.length → ∃ t, exec (.returnToService u) s = .next t
      ∧ (t.girder n).fenced = false ∧ t.cores = s.cores)
    ∧ (∀ n k, u = .cluster n → n < 32 → s.shape = true → clusterOf k = n → ∃ t, exec (.returnToService u) s = .next t
      ∧ (t.cluster n).fenced = false ∧ (t.girder n).fenced = false ∧ (t.core k).fenced = false)
    ∧ (∀ n, u = .stack n → n < 8 → s.shape = true → ∃ t, exec (.returnToService u) s = .next t
      ∧ (t.stack n).fenced = false ∧ ∀ c, c < 32 → stackOf c = n → (t.cluster c).fenced = false)
    ∧ (∀ d, u = .weightStore d → exec (.returnToService u) s = .next s))
  ∧ (∀ (s : State) (g o : Nat), g < 32 → s.power.resetAt ≤ s.now → o / 4096 % 32 = g → ∃ t,
      exec (.wstRefreshSlot g) s = .next t ∧ s.now ≤ t.now ∧ t.now < s.now + 147200 ∧ t.refreshing o = true)

/-- The Parapet path: PARAPET_FIRE counts, starts the pre-emption on both cores where it is armed and idle, and pends where
it runs (R392, R394, R395), and is an Unsupported Request before READY (R433); PARAPET_ARM and PARAPET_DISARM (R394);
PARAPET_CLR clears the latch only while no task runs; after two HALT_REQUESTs of the two cores within 1 µs that agree in bit
0 and in their signatures the outputs follow that bit, and others assert both (R396); PARTNER_TIMEOUT, PARAPET_DEADLINE and,
after more than 10 µs at another level, OUTPUT_SENSE assert both (R396, R398, R430); PARAPET_DESIGNATE takes two clusters
and a registered image (R400); PARAPET_PREEMPT starts the Parapet image on its core (R395); before READY there is no Parapet
to arm or run (R431). That each latch counts as a trigger is assumption 20, what pairs of writes compare 64, where an image
without an entry starts 82, and that an output sense counts as a latch 83: the model's readings. -/
def Obligations.ParapetPath : Prop :=
  (∀ (s : State) (val : Nat), s.shape = true → s.err.coreA < 128 → s.err.coreB < 128 →
    let latched (t : State) : Prop := t.err.ha = true ∧ t.err.hb = true ∧ t.err.latch = true
    (bit val 0 = true → s.power.ready = true → ∃ t, exec (.parapetFire val) s = .next t
      ∧ t.err.count = min 0xFFFF (s.err.count + 1) ∧ t.err.zone = 0
      ∧ (s.armed = false → t.cores = s.cores ∧ t.err.pend = s.err.pend)
      ∧ (s.armed = true → s.parapetBusy = true → t.cores = s.cores ∧ t.err.pend = true)
      ∧ (s.armed = true → s.parapetBusy = false →
        (t.core s.err.coreA).preempt = 1 ∧ (t.core s.err.coreB).preempt = 1))
    ∧ (bit val 0 = false → s.power.ready = true → exec (.parapetFire val) s = .next s)
    ∧ (s.power.ready = false → s.power.linkNext = false → exec (.parapetFire val) s = .next s.unsupported)
    ∧ (s.power.ready = true →
      bit val 0 = true → bit val 1 = false → fld val 32 32 < 10 → s.err.arm = false → s.err.designated = true →
      (s.core s.err.coreA).fenced = false → (s.core s.err.coreB).fenced = false → s.parResident s.err.coreA = true →
      s.parResident s.err.coreB = true → ∃ t, exec (.parapetArm val) s = .next t ∧ t.err.arm = true
        ∧ t.err.latch = false ∧ t.err.ha = true ∧ t.err.hb = true ∧ t.err.count = min 0xFFFF (s.err.count + 1))
    ∧ (bit val 0 = true → bit val 1 = false → fld val 32 32 < 10 → (s.err.arm = true ∨ s.err.designated = false) →
      exec (.parapetArm val) s = .next s)
    ∧ (s.power.ready = true → bit val 0 = false → bit val 1 = false → fld val 32 32 < 10 → s.err.arm = true →
      ∃ t, exec (.parapetDisarm val) s = .next t ∧ t.err.arm = false ∧ latched t ∧ t.err.pend = false)
    ∧ (bit val 0 = false → bit val 1 = false → fld val 32 32 < 10 → s.err.arm = false →
      exec (.parapetDisarm val) s = .next s)
    ∧ (s.err.run = false → ∃ t, exec .parapetClr s = .next t ∧ t.err.latch = false ∧ t.err.ha = s.err.ha
      ∧ t.err.hb = s.err.hb)
    ∧ (s.err.run = true → exec .parapetClr s = .next s)
    ∧ (s.power.ready = false → exec (.parapetArm val) s = .next s ∧ exec (.parapetDisarm val) s = .next s
      ∧ exec (.parapetDesignate val) s = .next s)
    ∧ (∀ i, s.sched.images.find? (fun i => i.handle == fld val 7 25 * 128) = some i → s.armed = false →
      s.power.ready = true → clusterOf (fld val 0 7) ≠ clusterOf (fld val 32 7) → ∃ t, exec (.parapetDesignate val) s = .next t
        ∧ t.err.designated = true ∧ t.err.coreA = fld val 0 7 ∧ t.err.coreB = fld val 32 7
        ∧ t.err.img = fld val 7 25 * 128 ∧ t.parResident t.err.coreA = true ∧ t.parResident t.err.coreB = true)
    ∧ ((s.armed = true ∨ clusterOf (fld val 0 7) = clusterOf (fld val 32 7)
        ∨ s.sched.images.find? (fun i => i.handle == fld val 7 25 * 128) = none) →
      exec (.parapetDesignate val) s = .next s)
    ∧ (∀ out, (∀ n, lget s.err.off (out % 2) none = some n → 23000 < n → ∃ t, exec (.outputSense out) s = .next t ∧ latched t)
      ∧ ((∀ n, lget s.err.off (out % 2) none = some n → n ≤ 23000) → exec (.outputSense out) s = .next s))
    ∧ (s.err.run = true → s.err.startAt + 2300 * s.err.dead ≤ s.now → ∃ t, exec .parapetDeadline s = .next t
      ∧ latched t ∧ t.err.run = false)
    ∧ ((s.err.run = false ∨ s.now < s.err.startAt + 2300 * s.err.dead) → exec .parapetDeadline s = .next s)
    ∧ (∀ w, w ∈ s.err.unpaired → w.counted = false → w.since + 2300 ≤ s.now → ∃ t, exec .partnerTimeout s = .next t
      ∧ latched t)
    ∧ ((∀ w ∈ s.err.unpaired, w.counted = true ∨ s.now < w.since + 2300) → exec .partnerTimeout s = .next s))
  ∧ (∀ (s : State) (core val : Nat),
    ((s.core core).inPar = false → exec (.haltRequest core val) s = .next s)
    ∧ ((s.core core).inPar = true → s.err.unpaired = [] → ∃ t w, exec (.haltRequest core val) s = .next t
      ∧ t.err.unpaired = [w] ∧ w.val = val ∧ w.fromA = (core == s.err.coreA) ∧ t.err.ha = s.err.ha
      ∧ t.err.hb = s.err.hb)
    ∧ (∀ w l, (s.core core).inPar = true → s.err.unpaired = w :: l → w.fromA ≠ (core == s.err.coreA) → ∃ t,
      exec (.haltRequest core val) s = .next t ∧ t.err.unpaired = l
      ∧ (let same : Prop := bit w.val 0 = bit val 0 ∧ w.sig = (s.core core).crc
        let late : Prop := w.counted = false ∧ w.since + 2300 < s.now
        (same → ¬ late → s.err.latch = false → t.err.ha = bit val 0 ∧ t.err.hb = bit val 0)
        ∧ (same → ¬ late → s.err.latch = true → t.err.ha = s.err.ha ∧ t.err.hb = s.err.hb)
        ∧ ((¬ same ∨ late) → t.err.ha = true ∧ t.err.hb = true ∧ t.err.latch = true))))
  ∧ (∀ (s : State) (core : Nat) (i : Image), s.shape = true → core < 128 →
    let c := s.core core
    ((c.preempt ≠ 1 ∨ s.power.ready = false ∨ (c.ord.live = true ∧ c.ord.commit = .done)) → exec (.parapetPreempt core) s = .next s)
    ∧ (s.power.ready = true → s.upsets = [] → c.preempt = 1 → c.ord.live = false → c.ord.starting = false → (s.girder (clusterOf core)).holder = none →
      c.imem.find? (fun i => i.handle == s.err.img) = some i → ∃ t, exec (.parapetPreempt core) s = .next t
        ∧ (t.core core).inPar = true ∧ (t.core core).preempt = 2 ∧ (t.core core).ldq = [] ∧ (t.core core).stq = []
        ∧ (t.strand core).live = true ∧ lget (t.strand core).regs.s 1 0#64 = BitVec.ofNat 64 s.err.trigStat
        ∧ (∀ e, ((t.strand core).eng e).pc = i.entry.getD 0) ∧ t.err.run = true ∧ (t.core core).ord = c.ord))

/-- What system software sets up and takes down, whole or not at all: CONTEXT_CONFIGURE (R353), CONTEXT_UNFENCE (R382),
PIPELINE_INSTANCE_CREATE with the partitions of its edges, all free, and PIPELINE_INSTANCE_DESTROY (R205, R221), CARVE_SET
(R186), PUBLISHED_BUFFER_CREATE (R236), APERTURE_CREATE (R244), and XID_RECORD_WRITE (R403). What a request carries, which
limits refuse it and what stays of an earlier object are the model's readings of assumptions 85 to 88 and 90, and that an
aperture of type n4 may lack scale words is assumption 145. -/
def Obligations.ContextSetup : Prop :=
  (∀ (s : State) (c : Nat) (q : CtxConfig), s.sched.ctxs.length = 1024 →
    (s.cfgFits c q = false → exec (.contextConfigure c q) s = .next s)
    ∧ (s.cfgFits c q = true → q.inst = none → ∃ t, exec (.contextConfigure c q) s = .next t
      ∧ (let x := t.ctx c
        x.configured = true ∧ x.base = q.base ∧ x.ceil = q.ceil ∧ x.weight = q.weight ∧ x.qcap = q.qcap
        ∧ x.dbase = q.dbase ∧ x.dcnt = q.dcnt ∧ x.xid = q.xid ∧ x.faultBase = q.faultBase ∧ x.falog = q.falog
        ∧ x.vec = q.vec ∧ x.owner = q.owner ∧ x.pasid = q.pasid ∧ x.bufs = (s.ctx c).bufs)
      ∧ ∀ d, d ≠ c → t.ctx d = s.ctx d)
    ∧ (s.cfgFits c q = true → c < 1024 ∧ 4 ≤ q.ceil ∧ q.ceil ≤ q.base ∧ q.base ≤ 23 ∧ 1 ≤ q.weight ∧ q.xid < 4096
      ∧ q.dbase + q.dcnt ≤ 4096)
    ∧ (∃ t, exec (.contextUnfence c) s = .next t ∧ (c < 1024 → (t.ctx c).fenced = false)
      ∧ (∀ d, d ≠ c → t.ctx d = s.ctx d)
      ∧ ∀ i x, (s.ctx c).stream = some i → s.stream i = some x → t.stream i = some { x with paused := false }))
  ∧ (∀ (s t : State) (c : Nat) (q : InstReq) (i : Image), s.shape = true →
    (s.instCreate c q = none → exec (.pipelineInstanceCreate c q) s = .next s)
    ∧ (s.instCreate c q = some t → s.sched.images.find? (fun i => i.handle == q.image && i.ctxs.contains c
        && !i.stages.isEmpty) = some i →
      exec (.pipelineInstanceCreate c q) s = .next t ∧ (s.ctx c).inst = none
      ∧ (t.ctx c).inst = some (q.image, q.cluster, q.arg % 2 ^ 64)
      ∧ (∀ d, d ≠ c → t.ctx d = s.ctx d)
      ∧ (∀ j e, i.edges[j]? = some e → ∃ p ∈ (t.cluster q.cluster).parts, p.ctx = c ∧ p.edge = j ∧ p.cls = e.cls
        ∧ p.slots.length = e.quota ∧ p.waiting = [] ∧ ∀ x ∈ p.slots, x.st = .free ∧ x.count = 0 ∧ x.bytes = []
          ∧ clusterOf x.core = q.cluster ∧ 128 - (t.cluster q.cluster).carve ≤ x.unit
          ∧ x.unit + clsUnits x.cls ≤ 128 ∧ x.unit % clsUnits x.cls = 0)
      ∧ slotsApart (heldSlots (t.cluster q.cluster).parts) = true))
  ∧ (∀ (s : State) (c : Nat), s.shape = true → ∃ t, exec (.pipelineInstanceDestroy c) s = .next t
    ∧ (c < 1024 → (t.ctx c).inst = none)
    ∧ ∀ n, n < 32 → (t.cluster n).parts = (s.cluster n).parts.filter (fun p => p.ctx != c)
      ∧ ∀ p ∈ (s.cluster n).parts, p.ctx = c → ∀ x ∈ p.slots, ∃ g, (t.cluster n).lastGen x.core x.unit = (g + 1) % 65536
        ∧ ∃ p' ∈ (s.cluster n).parts, ∃ y ∈ p'.slots, y.core = x.core ∧ y.unit = x.unit ∧ y.gen = g)
  ∧ (∀ (s : State) (n u : Nat), s.shape = true → n < 32 →
    ((s.cluster n).parts = [] → u ≤ 64 → (∀ l, l < 4 → s.allotOf (4 * n + l) + 4096 * u ≤ 0x80000) →
      ∃ t, exec (.carveSet n u) s = .next t ∧ (t.cluster n).carve = u ∧ t.cores = s.cores
        ∧ ∀ m, m ≠ n → t.cluster m = s.cluster m)
    ∧ (((s.cluster n).parts ≠ [] ∨ 64 < u) → exec (.carveSet n u) s = .next s))
  ∧ (∀ (s : State) (c h : Nat) (d : BufDesc), s.sched.ctxs.length = 1024 →
    (bufOk d = false → exec (.publishedBufferCreate c h d) s = .next s)
    ∧ (c < 1024 → h < 4096 → bufOk d = true → (∀ b ∈ (s.ctx c).bufs, b.handle ≠ h
        ∧ spansMeet d.base (bufBytes d) b.desc.base (bufBytes b.desc) = false) →
      ∃ t b, exec (.publishedBufferCreate c h d) s = .next t ∧ (t.ctx c).bufs = (s.ctx c).bufs ++ [b] ∧ b.handle = h
        ∧ b.desc = d ∧ b.version = 0 ∧ b.sel = List.replicate d.extents false ∧ ∀ e, e ≠ c → t.ctx e = s.ctx e))
  ∧ (∀ (s : State) (c i : Nat) (d : ApDesc), s.sched.ctxs.length = 1024 →
    (apOk d = false → exec (.apertureCreate c i d) s = .next s)
    ∧ (c < 1024 → i < 64 → apOk d = true → ∃ t, exec (.apertureCreate c i d) s = .next t
      ∧ (∀ a, a ∈ (t.ctx c).aps ↔ (a ∈ (s.ctx c).aps ∧ a.idx ≠ i) ∨ a = ⟨i, d, []⟩)
      ∧ (∀ k, k < s.cores.length → ∀ l ∈ (t.core k).l1, l ∈ (s.core k).l1
        ∧ ¬ (apKey c i 0 ≤ l.key ∧ l.key + 128 ≤ apKey c i 0 + 2 ^ 40))))
  ∧ (∀ (s : State) (x : Nat) (r : XidRec),
    (x < 4096 → s.xidOk r = true → ∃ t, exec (.xidRecordWrite x r) s = .next t ∧ aget t.xlt.xids x = some r
      ∧ ∀ y, y ≠ x → aget t.xlt.xids y = aget s.xlt.xids y)
    ∧ (s.xidOk r = false → exec (.xidRecordWrite x r) s = .next s))

/-- INVAL_PAGE, INVAL_XID and INVAL_ALL (R411): the entries of the page, of the translation context or of all leave every
TLB at GO; a GO while one is in progress is ignored, and INVALIDATION_DONE waits for the accesses that were translated.
PAGE_WALK serves every request of its entry, notes the fault that each strand raises (R410), or raises TRANSLATION_POISON in
the strand that asked, where no other's request joins it (R414). PAGE_MIGRATION migrates a page in three steps (R413).
DIRTY_LINE_DRAIN moves a dirty line without a bit error a level down, a slice's where its page is not withdrawn; it stays
what its core reads where the level below has room for it (R231). That entries leave at GO and what DONE waits for is
assumption 67, and what a poisoned walk does for those it serves assumption 68: the model's readings. -/
def Obligations.Translation : Prop :=
  (∀ (s : State) (x p : Nat), x < 4096 → p < 2 ^ 36 → s.shape = true →
    let gone (t : State) (e : TlbEntry) : Prop := (∀ k, k < 128 → e ∉ (t.core k).tlb) ∧ ∀ n, n < 32 → e ∉ (t.cluster n).tlb
    let kept (t : State) (e : TlbEntry) : Prop := (∀ k, k < 128 → e ∈ (s.core k).tlb → e ∈ (t.core k).tlb)
      ∧ ∀ n, n < 32 → e ∈ (s.cluster n).tlb → e ∈ (t.cluster n).tlb
    (s.xlt.busy = false →
      (∃ t, exec (.invalPage x p) s = .next t ∧ t.xlt.busy = true
        ∧ (∀ e : TlbEntry, e.xid = x → e.vpage = 4096 * p / 2 ^ e.shift → gone t e)
        ∧ ∀ e : TlbEntry, e.xid ≠ x ∨ e.vpage ≠ 4096 * p / 2 ^ e.shift → kept t e)
      ∧ (∃ t, exec (.invalXid x) s = .next t ∧ t.xlt.busy = true ∧ (∀ e : TlbEntry, e.xid = x → gone t e)
        ∧ ∀ e : TlbEntry, e.xid ≠ x → kept t e)
      ∧ (∃ t, exec .invalAll s = .next t ∧ t.xlt.busy = true ∧ ∀ e, gone t e))
    ∧ (s.xlt.busy = true → ∀ i ∈ [Instr.invalPage x p, .invalXid x, .invalAll], ∃ y,
      exec i s = .next { s with xlt := y } ∧ y.busy = true ∧ y.run = s.xlt.run ∧ y.xids = s.xlt.xids)
    ∧ (s.xlt.busy = true → (∀ k, k < 128 → s.holdsAccess k = false) → ∃ t, exec .invalidationDone s = .next t
      ∧ t.xlt.busy = false ∧ t.cores = s.cores)
    ∧ ((s.xlt.busy = false ∨ ∃ k, k < 128 ∧ s.holdsAccess k = true) → exec .invalidationDone s = .next s))
  ∧ (∀ (s : State) (st w : Nat), 8 ≤ w → exec (.pageWalk st w) s = .next s)
  ∧ (∀ (s : State) (st w l0 : Nat) (r : WalkReq) (l : List WalkReq), s.shape = true → st < 8 → w < 8 →
    ((s.stack st).missq = [] → exec (.pageWalk st w) s = .next s)
    ∧ ((s.stack st).missq = r :: l → s.asker r = true → r.core < 128 →
      (∀ e, s.walkWith (s.stack st).walkCache w r.xid r.va = .hit e →
        ∃ t, exec (.pageWalk st w) s = .next t ∧ e ∈ (t.core r.core).tlb ∧ e ∈ (t.cluster (clusterOf r.core)).tlb
          ∧ (t.stack st).missq = l.filter (fun x => !x.joins e.level r.xid r.va))
      ∧ (∀ page, s.walkWith (s.stack st).walkCache w r.xid r.va = .poison page l0 →
        (∀ x ∈ l, x.joins l0 r.xid r.va = true → s.asker x = false) → exec (.pageWalk st w) s = .next (takeFault
        { code := .translationPoison, precise := false, engine := engNo r.eng, text := r.text, addr := page }
        { s.modStack st (fun k => { k with missq := l.filter (fun x => !x.joins l0 r.xid r.va) }) with cur := r.core }))
      ∧ (s.walkWith (s.stack st).walkCache w r.xid r.va = .fault l0 → ∃ t, exec (.pageWalk st w) s = .next t
        ∧ r.va / 4096 ∈ (t.strand r.core).walkFault
        ∧ (t.stack st).missq = l.filter (fun x => !x.joins l0 r.xid r.va)))
    ∧ ((s.stack st).missq = r :: l → s.asker r = false → ∃ t, exec (.pageWalk st w) s = .next t
      ∧ (t.stack st).missq = l ∧ t.cores = s.cores))
  ∧ (∀ (s : State) (x va frame a : Nat) (e : TlbEntry), s.leafOf x va = some (e, [a]) → e.c = true → s.xlt.busy = false →
    frame % 2 ^ e.shift = 0 → frame < deviceEnd →
    let old := mnat s.home a 8
    (e.mig = false → (∃ t, exec (.pageMigration x va frame 1) s = .next t ∧ mnat t.home a 8 = setFld old 4 1 1
        ∧ t.xlt.busy = true) ∧ exec (.pageMigration x va frame 2) s = .next s)
    ∧ (e.mig = true → exec (.pageMigration x va frame 1) s = .next s
      ∧ (∃ t, exec (.pageMigration x va frame 2) s = .next t
        ∧ ∀ i, i < 2 ^ e.shift → mget t.home (frame + i) = mget s.home (e.frame + i))
      ∧ ∃ t, exec (.pageMigration x va frame 3) s = .next t
        ∧ mnat t.home a 8 = setFld (setFld old 12 40 (frame / 4096)) 4 1 0 ∧ t.xlt.busy = true))
  ∧ (∀ (s : State) (u i : Nat) (l : Line), s.shape = true → s.memWf = true → s.upsets = [] →
    (u < 128 → (s.core u).l1[i]? = some l → l.dirty ≠ 0#128 → l.dirty &&& l.valid = l.dirty →
      ((lineFind (s.cluster (clusterOf u)).slice l.key).isSome = true
        ∨ (roomFor 16 65536 (s.pick 5) (s.cluster (clusterOf u)).slice).1 = none) →
      ∃ t, exec (.dirtyLineDrain .l1 u i) s = .next t
      ∧ (t.core u).l1[i]? = some { l with dirty := 0#128 } ∧ (∀ a, t.seen u a = s.seen u a)
      ∧ (∃ x ∈ (t.cluster (clusterOf u)).slice, x.key = l.key ∧ ∀ j, j < 128 → l.dirty.getLsbD j = true →
        x.dirty.getLsbD j = true ∧ lineByte x.data j = lineByte l.data j))
    ∧ (u < 32 → (s.cluster u).slice[i]? = some l → l.dirty ≠ 0#128 → s.poisonedPa l.key = false → ∃ t, exec (.dirtyLineDrain .slice u i) s = .next t
      ∧ (t.cluster u).slice[i]? = some { l with dirty := 0#128 }
      ∧ ∀ j, j < 128 → mget t.home (l.key + j) = if l.dirty.getLsbD j then lineByte l.data j else mget s.home (l.key + j))
    ∧ (u < 8 → 128 * i < stackBytes → ∃ t, exec (.dirtyLineDrain .msc u i) s = .next t
      ∧ (∀ j, j < 128 → mget t.hbm (u * stackBytes + 128 * i + j) = mget s.home (u * stackBytes + 128 * i + j))
      ∧ t.home = s.home))

/-- The host's side: INBOUND_WRITE, INBOUND_READ and INBOUND_ATOMIC through BAR2 reach the home of the address in frames
that are all granted, or are unsupported (R420, R421, R425), reads where no bit error lies; MSIX_UNMASK sends a pending
message (R422), a function that requires IDE refuses every request outside it (R426), ATS_INVALIDATION drops address
translations (R423), IDE_KEY_PROGRAM programs nine IDE streams (R426), and SPDM requests are served in their order only
(R427, R428): GET_VERSION, GET_CAPABILITIES, NEGOTIATE_ALGORITHMS, GET_DIGESTS, GET_CERTIFICATE, SET_CERTIFICATE, CHALLENGE,
GET_MEASUREMENTS, KEY_EXCHANGE, FINISH, END_SESSION. One that comes during a reset waits for its end, and one in the
recovery state is an error (R427, R432). Which requests are unsupported beside those that the spec names is assumption 96,
the messages that the host sees 97, and the SPDM response codes are presumed from the protocol (98): the model's choices. -/
def Obligations.HostAccess : Prop :=
  (∀ (s : State) (fn off : Nat),
    let said (t : State) (tag val : Nat) : Prop := t.host.outbox = s.host.outbox ++ [(tag, val)]
    (∀ base size n, s.host.bar2[0]? = some (base, size) → s.power.ready = true → off + n ≤ size → 0 < n →
      base + off + n ≤ deviceEnd → s.err.poisoned = [] → (∀ k, k < 8 → (s.stack k).fenced = false) →
      s.ideRefuses 0 = false → s.barReach 0 off n = some (base + off))
    ∧ (∀ base size n, s.host.bar2[fn]? = some (base, size) → fn ≠ 0 → 0 < n → (∀ g ∈ s.host.grants, g.1 ≠ fn) →
      s.barReach fn off n = none)
    ∧ (∀ base size n, s.host.bar2[fn]? = some (base, size) → s.power.ready = true → off + n ≤ size → 0 < n →
      base + off + n ≤ deviceEnd → s.err.poisoned = [] → (∀ k, k < 8 → (s.stack k).fenced = false) →
      (∀ f, (base + off) / 4096 ≤ f → 4096 * f < base + off + n → s.granted fn f = true) →
      s.ideRefuses fn = false → s.barReach fn off n = some (base + off))
    ∧ (fn ∈ s.host.ideOnly → s.host.plain = true → ∀ n v, s.barReach fn off n = none
      ∧ s.barWrite fn off n v = s.unsupported ∧ s.barRead fn off n = s.unsupported)
    ∧ (∀ bytes : List Nat,
      (∀ pa, s.barReach fn off bytes.length = some pa → ∃ t, exec (.inboundWrite fn off bytes) s = .next t
        ∧ ∀ a, mget t.home a = if pa ≤ a ∧ a < pa + bytes.length then BitVec.ofNat 8 (lget bytes (a - pa) 0)
          else mget s.home a)
      ∧ (s.barReach fn off bytes.length = none → ∃ t, exec (.inboundWrite fn off bytes) s = .next t ∧ said t 0x101 0
        ∧ t.home = s.home))
    ∧ (∀ n ns, (∀ pa, s.upsets = [] → s.barReach fn off n = some pa → ∃ t, exec (.inboundRead fn off n ns) s = .next t
        ∧ said t 0x100 (mnat (if ns then s.hbm else s.home) pa n) ∧ t.home = s.home)
      ∧ (s.barReach fn off n = none → ∃ t, exec (.inboundRead fn off n ns) s = .next t ∧ said t 0x101 0))
    ∧ (∀ op sz, let n := wsizeBytes sz
      (off % n ≠ 0 → ∃ t, exec (.inboundAtomic fn off op sz) s = .next t ∧ said t 0x101 0 ∧ t.home = s.home)
      ∧ (∀ pa, off % n = 0 → s.upsets = [] → s.barReach fn off n = some pa → let old := mnat s.home pa n
        ∃ t, exec (.inboundAtomic fn off op sz) s = .next t ∧ said t 0x100 old
        ∧ mnat t.home pa n = (match op with
          | .fetchAdd v => (old + v) % 2 ^ (8 * n)
          | .swap v => v % 2 ^ (8 * n)
          | .cas c v => if old = c % 2 ^ (8 * n) then v % 2 ^ (8 * n) else old))))
  ∧ (∀ (s : State) (a b c d : Nat), (∃ t, exec (.msixUnmask a) s = .next t ∧ a ∉ t.host.msixMask
      ∧ t.host.msixSent = s.host.msixSent ++ (if a ∈ s.host.msixPend then [a] else []) ∧ a ∉ t.host.msixPend)
    ∧ (s.busPending a b = true → exec (.atsInvalidation a b c d) s = .next s)
    ∧ (s.busPending a b = false → ∃ t, exec (.atsInvalidation a b c d) s = .next t
      ∧ ∀ e, e ∈ t.host.atc ↔ e ∈ s.host.atc ∧ ¬ (e.1 = a ∧ e.2.1 = b ∧ c ≤ e.2.2.1 ∧ e.2.2.1 < c + d))
    ∧ (a ≤ 8 → ∃ t, exec (.ideKeyProgram a b) s = .next t ∧ aget t.host.ide a = some b
      ∧ ∀ j, j ≠ a → aget t.host.ide j = aget s.host.ide j)
    ∧ (8 < a → exec (.ideKeyProgram a b) s = .next s))
  ∧ (∀ (s : State) (a b c : Nat) (chain : List Nat) (i : Instr), i ∈ [Instr.getVersion, .getCapabilities,
      .negotiateAlgorithms a b, .getDigests, .getCertificate a b c, .setCertificate a chain, .challenge a b,
      .getMeasurements a b, .keyExchange a b, .finish a, .endSession] →
    (s.power.inReset = true ∨ s.power.linkNext = true →
      exec i s = .next { s with power := { s.power with spdmq := s.power.spdmq ++ [.event i] } })
    ∧ (s.power.ready = false → s.power.inReset = false → s.power.linkNext = false → exec i s = .next (s.toHost 0x7F 0)))
  ∧ (∀ (s : State) (a b c : Nat) (chain : List Nat), s.power.ready = true → s.power.inReset = false →
    s.power.linkNext = false → s.host.chains.length = 8 →
    let served (i : Instr) (tag : Nat) (P : State → Prop) : Prop := ∃ t v, exec i s = .next t
      ∧ t.host.outbox = s.host.outbox ++ [(tag, v)] ∧ P t
    let wrong (i : Instr) : Prop := ∃ t, exec i s = .next t ∧ t.host.outbox = s.host.outbox ++ [(0x7F, 0)]
      ∧ t.host.spdm = s.host.spdm ∧ t.host.session = s.host.session ∧ t.host.chains = s.host.chains
    served .getVersion 0x04 (fun t => t.host.spdm = 1 ∧ t.host.session = 0)
    ∧ (s.host.spdm = 1 → served .getCapabilities 0x61 (fun t => t.host.spdm = 2))
    ∧ (s.host.spdm ≠ 1 → wrong .getCapabilities)
    ∧ (s.host.spdm = 2 → bit a 11 = true → bit b 5 = true → served (.negotiateAlgorithms a b) 0x63 (fun t =>
      t.host.spdm = 3))
    ∧ ((s.host.spdm ≠ 2 ∨ bit a 11 = false ∨ bit b 5 = false) → wrong (.negotiateAlgorithms a b))
    ∧ (s.host.spdm = 3 →
      served .getDigests 0x01 (fun t => t.host.spdm = 3)
      ∧ (a < 8 → b < (s.chainOf a).length → served (.getCertificate a b c) 0x02 (fun t =>
        (0x02, ofLanes 8 (((s.chainOf a).drop b).take c)) ∈ t.host.outbox))
      ∧ (1 ≤ a → a < 8 → served (.setCertificate a chain) 0x6E (fun t => t.chainOf a = chain.map (· % 256)
        ∧ ∀ j, j ≠ a → t.chainOf j = s.chainOf j))
      ∧ wrong (.setCertificate 0 chain)
      ∧ (a < 8 → s.chainOf a ≠ [] → served (.challenge a b) 0x03 (fun t => t.host.spdm = 3))
      ∧ (a ≤ 5 ∨ a = 0xFF → served (.getMeasurements a b) 0x60 (fun t => t.host.spdm = 3))
      ∧ (s.host.session = 0 → a < 8 → served (.keyExchange a b) 0x64 (fun t => t.host.session = 1)))
    ∧ (s.host.spdm ≠ 3 → wrong .getDigests ∧ wrong (.getCertificate a b c) ∧ wrong (.setCertificate a chain)
      ∧ wrong (.challenge a b) ∧ wrong (.getMeasurements a b) ∧ wrong (.keyExchange a b))
    ∧ (s.host.session = 1 → a = Config.finishMac s.host.sessionId → served (.finish a) 0x65 (fun t =>
      t.host.session = 2))
    ∧ ((s.host.session ≠ 1 ∨ a ≠ Config.finishMac s.host.sessionId) → wrong (.finish a))
    ∧ (s.host.session = 2 → served .endSession 0x6C (fun t => t.host.session = 0))
    ∧ (s.host.session ≠ 2 → wrong .endSession))

/-- Power and boot: LINK_TRAINING brings the link up at a supported width and rate, or it stays down, and as the step after
POWER_GOOD it sets READY (R416, R431); VF_FLR fences the function's contexts (R417); PF_FLR, POWER_LOSS and THERMAL_LIMIT
above 115 °C assert both outputs and leave only the flash and what is outside the device (R397, R417, R439); POWER_GOOD goes
through the boot sequence, with the identity key that the certificate in the flash names, or ends in the recovery state,
where alone FLASH_REWRITE works (R431, R432, R434); POWER_LIMIT and THERMAL_LIMIT throttle Girders and hold placements off
after 100 µs (R437, R439); CORE_GATE, CLUSTER_GATE and HBM_SELF_REFRESH come after their times, with clean caches, and
POWER_WAKE finds what a gated core lost, but for a wake in the cycle of the commit point (R402, R438). That POWER_GOOD acts
in a reset only is assumption 102, how the start delay falls 103, the mean of the power readings 146, the parts of the flash
and its keys 148, and which state State.reset is 2: the model's choices. -/
def Obligations.PowerAndBoot : Prop :=
  (∀ (s : State) (w r : Nat),
    (∀ flit, s.power.inReset = true → exec (.linkTraining w r flit) s = .next s)
    ∧ (s.power.inReset = false → (w = 16 ∨ w = 8) → (r = 128 ∨ r = 64 ∨ r = 32) →
      ∃ t, exec (.linkTraining w r true) s = .next t ∧ t.host.linkUp = true ∧ t.host.width = w ∧ t.host.rate = r
        ∧ t.power.linkNext = false ∧ t.power.ready = (s.power.ready || s.power.linkNext))
    ∧ (s.power.inReset = false → ((w ≠ 16 ∧ w ≠ 8) ∨ (r ≠ 128 ∧ r ≠ 64 ∧ r ≠ 32)) → ∀ flit,
      ∃ t, exec (.linkTraining w r flit) s = .next t ∧ t.host.linkUp = false ∧ t.power.linkFailed = true))
  ∧ (∀ (s : State) (fn : Nat), s.sched.ctxs.length = 1024 →
    ((fn = 0 ∨ 16 < fn) → exec (.vfFlr fn) s = .next s)
    ∧ (1 ≤ fn → fn ≤ 16 → ∃ t, exec (.vfFlr fn) s = .next t ∧ ∀ c, c < 1024 → (s.ctx c).configured = true →
      (s.ctx c).owner = fn → (t.ctx c).fenced = true))
  ∧ (∀ (s : State) (i : Instr) (c : Nat), i = .pfFlr ∨ i = .powerLoss ∨ (115 < c ∧ i = .thermalLimit c) →
    ∃ t, exec i s = .next t
    ∧ t.err.ha = true ∧ t.err.hb = true ∧ t.err.latch = true ∧ t.power.ready = false ∧ t.power.inReset = true
    ∧ t.power.linkNext = false ∧ t.power.flash = s.power.flash ∧ t.host.mem = s.host.mem
    ∧ t.cores = State.reset.cores.map (fun x => { x with freeSince := s.now }) ∧ t.clusters = State.reset.clusters
    ∧ t.sched = State.reset.sched ∧ t.home = [] ∧ t.hbm = [] ∧ t.streams = [])
  ∧ (∀ (s : State) (r : BootResult) (bytes : List Nat),
    let flash := s.power.flash
    (s.power.inReset = false → exec (.powerGood r) s = .next s)
    ∧ (s.power.inReset = true → r.badUnits = [] → ∃ t, exec (.powerGood r) s = .next t ∧ t.power.ready = false
      ∧ t.power.inReset = false ∧ t.power.flash = flash ∧ t.clusters = State.reset.clusters ∧ t.sched = State.reset.sched
      ∧ t.err = { State.reset.err with sense := s.err.sense }
      ∧ (let o := s.power.recov.getD (bootFail flash r, r.cause % 256)
        (o.1 ≠ 0 → t.power.linkNext = false ∧ t.power.failStep = o.1 ∧ t.power.cause = o.2)
        ∧ (s.power.recov = none → o.1 = 0 → t.power.linkNext = true ∧ 600 ≤ t.power.plim ∧ t.power.plim ≤ 1300
          ∧ t.power.booted = flash ∧ Config.certSubject (Config.flashPart 6 flash) = Config.publicKey t.power.key)))
    ∧ (s.power.ready = false → s.power.inReset = false → s.power.linkNext = false → (∀ b ∈ bytes, b < 256) → ∃ t,
      exec (.flashRewrite bytes) s = .next t ∧ t.power.flash = bytes ∧ t.power.rewritten = true ∧ t.cores = s.cores)
    ∧ ((s.power.ready = true ∨ s.power.inReset = true ∨ s.power.linkNext = true) →
      exec (.flashRewrite bytes) s = .next s))
  ∧ (∀ (s : State) (n w : Nat), s.shape = true → n < 32 → s.parCluster n = false → (s.girder n).k ≤ 8 →
    (s.power.plim < w → ∃ t, exec (.powerLimit w) s = .next t ∧ (t.girder n).k = min 8 ((s.girder n).k + 1)
      ∧ (∀ m, m < 32 → s.parCluster m = true → t.cluster m = s.cluster m)
      ∧ (s.power.overSince = none → t.power.overSince = some s.now ∧ t.power.delayPlace = false)
      ∧ (∀ t0, s.power.overSince = some t0 → t.power.overSince = some t0
        ∧ t.power.delayPlace = decide (t0 + 230000 ≤ s.now)
        ∧ (t0 + 230000 ≤ s.now → (s.girder n).k = 8 → ∀ k, clusterOf k = n → t.heldOff k = true)))
    ∧ (w ≤ s.power.plim → (∀ x ∈ s.power.readings, x.2 ≤ s.power.plim) → ∃ t, exec (.powerLimit w) s = .next t
      ∧ t.power.delayPlace = false ∧ t.power.overSince = none
      ∧ (s.power.temp ≤ 95 → (t.girder n).k = max 1 ((s.girder n).k - 1))
      ∧ (95 < s.power.temp → t.clusters = s.clusters))
    ∧ (95 < w → w ≤ 115 → ∃ t, exec (.thermalLimit w) s = .next t ∧ t.power.stopPlace = decide (105 < w)
      ∧ t.power.temp = w
      ∧ (s.power.heatAt = none → (t.girder n).k = min 8 ((s.girder n).k + 1) ∧ t.power.heatAt = some s.now)
      ∧ (∀ t0, s.power.heatAt = some t0 → s.now < t0 + 230000 → t.clusters = s.clusters)
      ∧ (105 < w → ∀ k, s.isParapet k = false → t.heldOff k = true))
    ∧ (w ≤ 95 → ∃ t, exec (.thermalLimit w) s = .next t ∧ t.power.stopPlace = false ∧ t.clusters = s.clusters))
  ∧ (∀ (s : State) (k n : Nat), s.shape = true → k < 128 → n < 32 →
    ((s.core k).free = true → (s.core k).gated = false → s.isParapet k = false → (s.core k).freeSince + 23000 ≤ s.now →
      ∃ t, exec (.coreGate k) s = .next t ∧ (t.core k).gated = true ∧ (t.core k).gateAt = s.now ∧ allClean (t.core k).l1
        ∧ (t.core k).spad = (s.core k).spad)
    ∧ (((s.core k).free = false ∨ s.isParapet k = true ∨ s.now < (s.core k).freeSince + 23000) →
      exec (.coreGate k) s = .next s)
    ∧ ((∀ j, j < 4 → (s.core (4 * n + j)).gated = true) → (s.cluster n).gated = false → (s.cluster n).parts = [] →
      (∀ o ∈ (s.girder n).owner, o = none) → s.parCluster n = false → ∃ t, exec (.clusterGate n) s = .next t
        ∧ (t.cluster n).gated = true ∧ (t.cluster n).gateAt = s.now ∧ allClean (t.cluster n).slice)
    ∧ ((∃ j, j < 4 ∧ (s.core (4 * n + j)).gated = false) → exec (.clusterGate n) s = .next s)
    ∧ (∃ t, exec (.powerWake (.core k)) s = .next t ∧ (t.core k).gated = false
      ∧ (t.cluster (clusterOf k)).gated = false ∧ (t.core k).spad = (s.core k).spad
      ∧ ((s.core k).gated = false → t.core k = s.core k)
      ∧ ((s.core k).gated = true → s.now ≤ (s.core k).gateAt → t.core k = { s.core k with gated := false })
      ∧ ((s.core k).gated = true → (s.core k).gateAt < s.now → (t.core k).imem = [] ∧ (t.core k).l1 = []
        ∧ (t.core k).freeSince = s.now))
    ∧ (n < 8 → (s.stack n).lastAccess + 115000 ≤ s.now → ∃ t, exec (.hbmSelfRefresh n) s = .next t
      ∧ (t.stack n).selfRefresh = true)
    ∧ (s.now < (s.stack n).lastAccess + 115000 → exec (.hbmSelfRefresh n) s = .next s))

/-! ## Invariants -/

/-- The device as reset leaves it (R99, R272, R393, R396, R404, R431) has the units of R15 and its memories in canonical
form; no core runs, both halt outputs are asserted and latched, the Parapet is not designated, no lease is held, and READY
is set. Memory reads as 0: the model's choice where the spec states no contents (assumptions 3 and 5); that this state is
the one after the boot sequence is assumption 2. -/
def Obligations.AtReset : Prop :=
  let s := State.reset
  s.memWf = true ∧ s.shape = true ∧ s.latchHolds = true ∧ s.err.ha = true ∧ s.err.hb = true ∧ s.err.latch = true
    ∧ s.err.designated = false ∧ s.err.dead = 1000 ∧ s.err.wdog = 0x04000000 ∧ s.power.ready = true
    ∧ (∀ k, (s.strand k).live = false) ∧ (∀ n, (s.girder n).holder = none ∧ (s.girder n).prev = 3
      ∧ (s.girder n).leaseLen = 16 ∧ (s.girder n).leaseCyc = 65536 ∧ (s.girder n).migWait = 8192)
    ∧ s.sched.age = 100 ∧ s.sched.quant = 10 ∧ (∀ p, s.byteAt p = 0#8)

/-- Every step keeps every memory and every cache of the device in canonical form, from any state in which they are. -/
def Obligations.MemoryInvariant : Prop :=
  ∀ s t : State, s.memWf = true → step s = .next t → t.memWf = true

/-- Every step keeps the device's units and each strand's registers and queues (R15, R99), and keeps both halt outputs
asserted while they are latched (R396), from any state in which this holds. -/
def Obligations.StructureInvariant : Prop :=
  ∀ s t : State, s.shape = true → s.latchHolds = true → step s = .next t → t.shape = true ∧ t.latchHolds = true
end

