-- ==== Sys2Proof/Laws/Memory.lean ====
section
/-! SUPPORT. Memories: every operation keeps the canonical form, and what a read gives after it. -/

namespace Sys2Proof.Machine

/-- The canonical form, said of the whole list: rising addresses, no byte 0. -/
theorem Memory.wf_iff (m : Memory) :
    Memory.wf m = true ↔ m.Pairwise (fun c d => c.1 < d.1) ∧ ∀ c ∈ m, c.2 ≠ 0#8 := by
  induction m with
  | nil => simp [Memory.wf]
  | cons c m ih =>
    cases m with
    | nil => simp [Memory.wf]
    | cons d m =>
      simp only [Memory.wf, Bool.and_eq_true, decide_eq_true_eq, ih, bne_iff_ne]
      constructor
      · rintro ⟨⟨hc, hlt⟩, hp, hz⟩
        refine ⟨?_, ?_⟩
        · rw [List.pairwise_cons]
          refine ⟨?_, hp⟩
          intro x hx
          rcases List.mem_cons.mp hx with rfl | hx
          · exact hlt
          · exact Nat.lt_trans hlt ((List.pairwise_cons.mp hp).1 x hx)
        · intro x hx
          rcases List.mem_cons.mp hx with rfl | hx
          · exact hc
          · exact hz x hx
      · rintro ⟨hp, hz⟩
        rw [List.pairwise_cons] at hp
        exact ⟨⟨hz c (by simp), hp.1 d (by simp)⟩, hp.2, fun x hx => hz x (by simp [hx])⟩

theorem Memory.wf_nil : Memory.wf [] = true := rfl

/-- Leaving entries out keeps the form. -/
theorem Memory.wf_filter {m : Memory} (h : Memory.wf m = true) (p : Host.Cell → Bool) :
    Memory.wf (m.filter p) = true := by
  rw [Memory.wf_iff] at h ⊢
  exact ⟨h.1.filter p, fun c hc => h.2 c (List.mem_of_mem_filter hc)⟩

/-- A form joined from two parts, the first below the second. -/
theorem Memory.wf_append {m n : Memory} (hm : Memory.wf m = true) (hn : Memory.wf n = true)
    (h : ∀ c ∈ m, ∀ d ∈ n, c.1 < d.1) : Memory.wf (m ++ n) = true := by
  rw [Memory.wf_iff] at hm hn ⊢
  refine ⟨List.pairwise_append.mpr ⟨hm.1, hn.1, h⟩, ?_⟩
  intro c hc
  rcases List.mem_append.mp hc with hc | hc
  · exact hm.2 c hc
  · exact hn.2 c hc

theorem mem_mcell {a : Nat} {b : Byte} {c : Host.Cell} (h : c ∈ mcell a b) : c = (a, b) ∧ b ≠ 0#8 := by
  unfold mcell at h
  split at h
  · simp at h
  · exact ⟨by simpa using h, by assumption⟩

theorem wf_mcell (a : Nat) (b : Byte) : Memory.wf (mcell a b) = true := by
  unfold mcell
  split
  · rfl
  · simp [Memory.wf]; assumption

theorem mem_mset {m : Memory} {a : Nat} {b : Byte} {c : Host.Cell} (h : c ∈ mset m a b) :
    c ∈ m ∨ (c = (a, b) ∧ b ≠ 0#8) := by
  induction m with
  | nil => exact .inr (mem_mcell h)
  | cons d m ih =>
    unfold mset at h
    split at h
    · rcases List.mem_append.mp h with h | h
      · exact .inr (mem_mcell h)
      · exact .inl h
    · split at h
      · rcases List.mem_append.mp h with h | h
        · exact .inr (mem_mcell h)
        · exact .inl (List.mem_cons_of_mem _ h)
      · rcases List.mem_cons.mp h with rfl | h
        · exact .inl (by simp)
        · rcases ih h with h | h
          · exact .inl (List.mem_cons_of_mem _ h)
          · exact .inr h

/-- Writing one byte keeps the form. -/
theorem Memory.wf_mset {m : Memory} (h : Memory.wf m = true) (a : Nat) (b : Byte) :
    Memory.wf (mset m a b) = true := by
  induction m with
  | nil => exact wf_mcell a b
  | cons d m ih =>
    have hm := (Memory.wf_iff _).mp h
    have hp := List.pairwise_cons.mp hm.1
    have htl : Memory.wf m = true := (Memory.wf_iff m).mpr ⟨hp.2, fun c hc => hm.2 c (by simp [hc])⟩
    unfold mset
    split
    · rename_i hlt
      refine Memory.wf_append (wf_mcell a b) h ?_
      intro c hc x hx
      obtain ⟨rfl, -⟩ := mem_mcell hc
      rcases List.mem_cons.mp hx with rfl | hx
      · exact hlt
      · exact Nat.lt_trans hlt (hp.1 x hx)
    · split
      · rename_i hne heq
        refine Memory.wf_append (wf_mcell a b) htl ?_
        intro c hc x hx
        obtain ⟨rfl, -⟩ := mem_mcell hc
        have := hp.1 x hx
        simpa [heq] using this
      · rename_i hlt hne
        rw [Memory.wf_iff]
        have hs := (Memory.wf_iff _).mp (ih htl)
        refine ⟨List.pairwise_cons.mpr ⟨?_, hs.1⟩, ?_⟩
        · intro x hx
          rcases mem_mset hx with hx | ⟨rfl, -⟩
          · exact hp.1 x hx
          · show d.1 < a
            omega
        · intro x hx
          rcases List.mem_cons.mp hx with rfl | hx
          · exact hm.2 _ (by simp)
          · exact hs.2 x hx

theorem mem_mrun {l : List Byte} {a : Nat} {c : Host.Cell} (h : c ∈ mrun a l) :
    a ≤ c.1 ∧ c.1 < a + l.length ∧ c.2 ≠ 0#8 := by
  induction l generalizing a with
  | nil => simp [mrun] at h
  | cons b l ih =>
    rcases List.mem_append.mp h with h | h
    · obtain ⟨rfl, hb⟩ := mem_mcell h
      exact ⟨Nat.le_refl _, by simp, hb⟩
    · obtain ⟨h1, h2, h3⟩ := ih h
      exact ⟨by omega, by simp only [List.length_cons]; omega, h3⟩

theorem wf_mrun (a : Nat) (l : List Byte) : Memory.wf (mrun a l) = true := by
  induction l generalizing a with
  | nil => rfl
  | cons b l ih =>
    refine Memory.wf_append (wf_mcell a b) (ih (a + 1)) ?_
    intro c hc d hd
    obtain ⟨rfl, -⟩ := mem_mcell hc
    exact (mem_mrun hd).1

/-- Writing a run of bytes keeps the form. -/
theorem Memory.wf_mputs {m : Memory} (h : Memory.wf m = true) (a : Nat) (l : List Byte) :
    Memory.wf (mputs m a l) = true := by
  unfold mputs
  refine Memory.wf_append (Memory.wf_append (Memory.wf_filter h _) (wf_mrun a l) ?_) (Memory.wf_filter h _) ?_
  · intro c hc d hd
    have h1 := (List.mem_filter.mp hc).2
    have h2 := (mem_mrun hd).1
    simp only [decide_eq_true_eq] at h1
    omega
  · intro c hc d hd
    have h2 := (List.mem_filter.mp hd).2
    simp only [decide_eq_true_eq] at h2
    rcases List.mem_append.mp hc with hc | hc
    · have h1 := (List.mem_filter.mp hc).2
      simp only [decide_eq_true_eq] at h1
      omega
    · have h1 := (mem_mrun hc).2.1
      omega

theorem Memory.wf_mputn {m : Memory} (h : Memory.wf m = true) (a n x : Nat) : Memory.wf (mputn m a n x) = true :=
  Memory.wf_mputs h a _

theorem Memory.wf_mclear {m : Memory} (h : Memory.wf m = true) (lo hi : Nat) : Memory.wf (mclear m lo hi) = true :=
  Memory.wf_filter h _

theorem Memory.wf_lineDrain {m : Memory} (h : Memory.wf m = true) (l : Line) : Memory.wf (lineDrain m l) = true :=
  Memory.wf_mputs h _ _

/-- Entries put back one by one keep the form. -/
theorem Memory.wf_foldl_mset {m : Memory} (h : Memory.wf m = true) (l : List Host.Cell) :
    Memory.wf (l.foldl (fun m c => mset m c.1 c.2) m) = true := by
  induction l generalizing m with
  | nil => exact h
  | cons c l ih => exact ih (Memory.wf_mset h c.1 c.2)

/-! ### Reads after writes -/

/-- A byte that no entry names reads as 0. -/
theorem mget_of_not_mem {m : Memory} {a : Nat} (h : ∀ c ∈ m, c.1 ≠ a) : mget m a = 0#8 := by
  induction m with
  | nil => rfl
  | cons c m ih =>
    simp only [mget]
    rw [if_neg (h c (by simp))]
    exact ih (fun d hd => h d (by simp [hd]))

theorem mget_append (m n : Memory) (a : Nat) :
    mget (m ++ n) a = if m.any (fun c => c.1 == a) then mget m a else mget n a := by
  induction m with
  | nil => simp
  | cons c m ih =>
    by_cases h : c.1 = a
    · simp [mget, h]
    · simp [mget, h, ih]

theorem mget_mcell (a : Nat) (b : Byte) : mget (mcell a b) a = b := by
  unfold mcell
  split
  · rename_i h; simp [mget, h]
  · simp [mget]

/-- A filtered memory reads as before at an address whose every entry stays. -/
theorem mget_filter {m : Memory} {p : Host.Cell → Bool} {a : Nat} (h : ∀ c ∈ m, c.1 = a → p c = true) :
    mget (m.filter p) a = mget m a := by
  induction m with
  | nil => rfl
  | cons c m ih =>
    have ih := ih (fun d hd => h d (by simp [hd]))
    by_cases hc : c.1 = a
    · have hp := h c (by simp) hc
      simp [List.filter, hp, mget, hc]
    · by_cases hp : p c
      · simp [List.filter, hp, mget, hc, ih]
      · simp [List.filter, hp, mget, hc, ih]

theorem mget_filter_none {m : Memory} {p : Host.Cell → Bool} {a : Nat} (h : ∀ c ∈ m, c.1 = a → p c = false) :
    mget (m.filter p) a = 0#8 := by
  refine mget_of_not_mem ?_
  intro c hc ha
  have := List.mem_filter.mp hc
  simp [h c this.1 ha] at this

/-- Byte i of a run reads back. -/
theorem mget_mrun (l : List Byte) (a i : Nat) (h : i < l.length) : mget (mrun a l) (a + i) = l.getD i 0#8 := by
  induction l generalizing a i with
  | nil => simp at h
  | cons b l ih =>
    simp only [mrun, mget_append]
    cases i with
    | zero =>
      split
      · simpa using mget_mcell a b
      · rename_i hn
        have hb : b = 0#8 := by
          by_contra hb
          exact hn (by simp [mcell, hb])
        rw [mget_of_not_mem (fun c hc => by have := (mem_mrun hc).1; omega)]
        simp [hb]
    | succ i =>
      rw [if_neg]
      · have := ih (a + 1) i (by simpa using h)
        rw [show a + (i + 1) = a + 1 + i by omega, this]
        simp
      · simp only [Bool.not_eq_true, List.any_eq_false]
        intro c hc
        obtain ⟨rfl, -⟩ := mem_mcell hc
        simp

/-- The bytes written read back. -/
theorem mget_mputs_in (m : Memory) (a : Nat) (l : List Byte) (i : Nat) (h : i < l.length) :
    mget (mputs m a l) (a + i) = l.getD i 0#8 := by
  unfold mputs
  rw [mget_append, mget_append]
  have h1 : (m.filter (fun c => decide (c.1 < a))).any (fun c => c.1 == a + i) = false := by
    rw [List.any_eq_false]
    intro c hc
    have := (List.mem_filter.mp hc).2
    simp only [decide_eq_true_eq] at this
    simp only [beq_iff_eq]
    omega
  have h3 : mget (m.filter (fun c => decide (a + l.length ≤ c.1))) (a + i) = 0#8 := by
    refine mget_filter_none ?_
    intro c _ hc
    simp only [decide_eq_false_iff_not]
    omega
  simp only [List.any_append, h1, Bool.false_or]
  split
  · simp [mget_mrun l a i h]
  · rename_i hn
    rw [h3, ← mget_mrun l a i h]
    symm
    refine mget_of_not_mem ?_
    intro c hc ha
    apply hn
    rw [List.any_eq_true]
    exact ⟨c, hc, by simp [ha]⟩

/-- Every other byte reads as before. -/
theorem mget_mputs_out (m : Memory) (a : Nat) (l : List Byte) (x : Nat) (h : x < a ∨ a + l.length ≤ x) :
    mget (mputs m a l) x = mget m x := by
  unfold mputs
  rw [mget_append, mget_append]
  have hr : (mrun a l).any (fun c => c.1 == x) = false := by
    rw [List.any_eq_false]
    intro c hc
    have := mem_mrun hc
    simp only [beq_iff_eq]
    omega
  have hr0 : mget (mrun a l) x = 0#8 := by
    refine mget_of_not_mem ?_
    intro c hc
    have := mem_mrun hc
    omega
  simp only [List.any_append, hr, Bool.or_false]
  rcases h with h | h
  · have e1 : mget (m.filter (fun c => decide (c.1 < a))) x = mget m x :=
      mget_filter (fun c _ hc => by simp only [decide_eq_true_eq]; omega)
    have e2 : mget (m.filter (fun c => decide (a + l.length ≤ c.1))) x = 0#8 :=
      mget_filter_none (fun c _ hc => by simp only [decide_eq_false_iff_not]; omega)
    split
    · exact e1
    · rename_i hn
      rw [e2]
      symm
      refine mget_of_not_mem ?_
      intro c hc ha
      apply hn
      rw [List.any_eq_true]
      exact ⟨c, List.mem_filter.mpr ⟨hc, by simp only [decide_eq_true_eq]; omega⟩, by simp [ha]⟩
  · have e1 : (m.filter (fun c => decide (c.1 < a))).any (fun c => c.1 == x) = false := by
      rw [List.any_eq_false]
      intro c hc
      have := (List.mem_filter.mp hc).2
      simp only [decide_eq_true_eq] at this
      simp only [beq_iff_eq]
      omega
    rw [e1]
    simp only [Bool.false_eq_true, if_false]
    exact mget_filter (fun c _ hc => by simp only [decide_eq_true_eq]; omega)

/-- A zeroed range reads 0, and every other byte as before. -/
theorem mget_mclear (m : Memory) (lo hi x : Nat) :
    mget (mclear m lo hi) x = if lo ≤ x ∧ x < hi then 0#8 else mget m x := by
  unfold mclear
  split
  · exact mget_filter_none (fun c _ hc => by
      simp only [Bool.or_eq_false_iff, decide_eq_false_iff_not]; omega)
  · exact mget_filter (fun c _ hc => by
      simp only [Bool.or_eq_true, decide_eq_true_eq]; omega)

/-- Bytes of a range read one by one. -/
theorem mgets_get (m : Memory) (a n i : Nat) (h : i < n) : (mgets m a n).getD i 0#8 = mget m (a + i) := by
  simp only [mgets, List.getD, List.getElem?_map, List.getElem?_range h, Option.map_some, Option.getD_some, mpart]
  exact mget_filter (fun c _ hc => by simp only [Bool.and_eq_true, decide_eq_true_eq]; omega)

@[simp] theorem length_mgets (m : Memory) (a n : Nat) : (mgets m a n).length = n := by simp [mgets]

end Sys2Proof.Machine
end

