-- ==== Sys2Proof/Laws/Lists.lean ====
section
/-! SUPPORT. The small lemmas of lget, lmod and the association lists. -/

namespace Sys2Proof.Machine

@[simp] theorem length_lmod {α : Type} (l : List α) (i : Nat) (f : α → α) : (lmod l i f).length = l.length := by
  induction l generalizing i with
  | nil => rfl
  | cons a l ih => cases i <;> simp [lmod, ih]

@[simp] theorem lget_nil {α : Type} (i : Nat) (d : α) : lget [] i d = d := by simp [lget]

theorem lget_lmod_same {α : Type} (l : List α) (i : Nat) (f : α → α) (d : α) (h : i < l.length) :
    lget (lmod l i f) i d = f (lget l i d) := by
  induction l generalizing i with
  | nil => simp at h
  | cons a l ih =>
    cases i with
    | zero => simp [lmod, lget]
    | succ i =>
      have := ih i (by simpa using h)
      simpa [lmod, lget] using this

theorem lget_lmod_ne {α : Type} (l : List α) (i j : Nat) (f : α → α) (d : α) (h : i ≠ j) :
    lget (lmod l i f) j d = lget l j d := by
  induction l generalizing i j with
  | nil => rfl
  | cons a l ih =>
    cases i with
    | zero =>
      cases j with
      | zero => exact absurd rfl h
      | succ j => simp [lmod, lget]
    | succ i =>
      cases j with
      | zero => simp [lmod, lget]
      | succ j =>
        have := ih i j (by omega)
        simpa [lmod, lget] using this

theorem lget_set_same {α : Type} (l : List α) (i : Nat) (a d : α) (h : i < l.length) : lget (l.set i a) i d = a := by
  simp [lget, List.getD, h]

theorem lget_set_ne {α : Type} (l : List α) (i j : Nat) (a d : α) (h : i ≠ j) : lget (l.set i a) j d = lget l j d := by
  simp [lget, List.getD, h]

/-- Every element of a changed list: the changed one, or an old one. -/
theorem mem_lmod {α : Type} {l : List α} {i : Nat} {f : α → α} {x : α} (h : x ∈ lmod l i f) :
    x ∈ l ∨ ∃ a ∈ l, x = f a := by
  induction l generalizing i with
  | nil => simp [lmod] at h
  | cons a l ih =>
    cases i with
    | zero =>
      rcases List.mem_cons.mp h with rfl | h
      · exact .inr ⟨a, by simp, rfl⟩
      · exact .inl (by simp [h])
    | succ i =>
      rcases List.mem_cons.mp h with rfl | h
      · exact .inl (by simp)
      · rcases ih h with h | ⟨b, hb, rfl⟩
        · exact .inl (by simp [h])
        · exact .inr ⟨b, by simp [hb], rfl⟩

theorem lget_mem_or {α : Type} (l : List α) (i : Nat) (d : α) : lget l i d ∈ l ∨ lget l i d = d := by
  by_cases h : i < l.length
  · left; simp [lget, List.getD, h]
  · right; simp [lget, List.getD, h]

end Sys2Proof.Machine
end

