-- ==== Sys2Proof/Laws/State.lean ====
section
/-! SUPPORT. One lemma per field of State per update that leaves it alone, and what the update of a core, a cluster or a
strand gives when it is read back. -/

namespace Sys2Proof.Machine

variable (s : State)

/-! ### modCore -/

@[simp] theorem modCore_clusters (k : Nat) (f : Core → Core) : (s.modCore k f).clusters = s.clusters := rfl
@[simp] theorem modCore_doms (k : Nat) (f : Core → Core) : (s.modCore k f).doms = s.doms := rfl
@[simp] theorem modCore_dies (k : Nat) (f : Core → Core) : (s.modCore k f).dies = s.dies := rfl
@[simp] theorem modCore_home (k : Nat) (f : Core → Core) : (s.modCore k f).home = s.home := rfl
@[simp] theorem modCore_hbm (k : Nat) (f : Core → Core) : (s.modCore k f).hbm = s.hbm := rfl
@[simp] theorem modCore_sched (k : Nat) (f : Core → Core) : (s.modCore k f).sched = s.sched := rfl
@[simp] theorem modCore_streams (k : Nat) (f : Core → Core) : (s.modCore k f).streams = s.streams := rfl
@[simp] theorem modCore_host (k : Nat) (f : Core → Core) : (s.modCore k f).host = s.host := rfl
@[simp] theorem modCore_err (k : Nat) (f : Core → Core) : (s.modCore k f).err = s.err := rfl
@[simp] theorem modCore_xlt (k : Nat) (f : Core → Core) : (s.modCore k f).xlt = s.xlt := rfl
@[simp] theorem modCore_power (k : Nat) (f : Core → Core) : (s.modCore k f).power = s.power := rfl
@[simp] theorem modCore_now (k : Nat) (f : Core → Core) : (s.modCore k f).now = s.now := rfl
@[simp] theorem modCore_cur (k : Nat) (f : Core → Core) : (s.modCore k f).cur = s.cur := rfl
@[simp] theorem modCore_agenda (k : Nat) (f : Core → Core) : (s.modCore k f).agenda = s.agenda := rfl
@[simp] theorem modCore_free (k : Nat) (f : Core → Core) : (s.modCore k f).free = s.free := rfl
@[simp] theorem modCore_upsets (k : Nat) (f : Core → Core) : (s.modCore k f).upsets = s.upsets := rfl

/-! ### modCluster -/

@[simp] theorem modCluster_cores (n : Nat) (f : Cluster → Cluster) : (s.modCluster n f).cores = s.cores := rfl
@[simp] theorem modCluster_doms (n : Nat) (f : Cluster → Cluster) : (s.modCluster n f).doms = s.doms := rfl
@[simp] theorem modCluster_dies (n : Nat) (f : Cluster → Cluster) : (s.modCluster n f).dies = s.dies := rfl
@[simp] theorem modCluster_home (n : Nat) (f : Cluster → Cluster) : (s.modCluster n f).home = s.home := rfl
@[simp] theorem modCluster_hbm (n : Nat) (f : Cluster → Cluster) : (s.modCluster n f).hbm = s.hbm := rfl
@[simp] theorem modCluster_sched (n : Nat) (f : Cluster → Cluster) : (s.modCluster n f).sched = s.sched := rfl
@[simp] theorem modCluster_streams (n : Nat) (f : Cluster → Cluster) : (s.modCluster n f).streams = s.streams := rfl
@[simp] theorem modCluster_host (n : Nat) (f : Cluster → Cluster) : (s.modCluster n f).host = s.host := rfl
@[simp] theorem modCluster_err (n : Nat) (f : Cluster → Cluster) : (s.modCluster n f).err = s.err := rfl
@[simp] theorem modCluster_xlt (n : Nat) (f : Cluster → Cluster) : (s.modCluster n f).xlt = s.xlt := rfl
@[simp] theorem modCluster_power (n : Nat) (f : Cluster → Cluster) : (s.modCluster n f).power = s.power := rfl
@[simp] theorem modCluster_now (n : Nat) (f : Cluster → Cluster) : (s.modCluster n f).now = s.now := rfl
@[simp] theorem modCluster_cur (n : Nat) (f : Cluster → Cluster) : (s.modCluster n f).cur = s.cur := rfl
@[simp] theorem modCluster_agenda (n : Nat) (f : Cluster → Cluster) : (s.modCluster n f).agenda = s.agenda := rfl
@[simp] theorem modCluster_free (n : Nat) (f : Cluster → Cluster) : (s.modCluster n f).free = s.free := rfl
@[simp] theorem modCluster_upsets (n : Nat) (f : Cluster → Cluster) : (s.modCluster n f).upsets = s.upsets := rfl

/-! ### modGirder -/

@[simp] theorem modGirder_cores (n : Nat) (f : Girder → Girder) : (s.modGirder n f).cores = s.cores := rfl
@[simp] theorem modGirder_doms (n : Nat) (f : Girder → Girder) : (s.modGirder n f).doms = s.doms := rfl
@[simp] theorem modGirder_dies (n : Nat) (f : Girder → Girder) : (s.modGirder n f).dies = s.dies := rfl
@[simp] theorem modGirder_home (n : Nat) (f : Girder → Girder) : (s.modGirder n f).home = s.home := rfl
@[simp] theorem modGirder_hbm (n : Nat) (f : Girder → Girder) : (s.modGirder n f).hbm = s.hbm := rfl
@[simp] theorem modGirder_sched (n : Nat) (f : Girder → Girder) : (s.modGirder n f).sched = s.sched := rfl
@[simp] theorem modGirder_streams (n : Nat) (f : Girder → Girder) : (s.modGirder n f).streams = s.streams := rfl
@[simp] theorem modGirder_host (n : Nat) (f : Girder → Girder) : (s.modGirder n f).host = s.host := rfl
@[simp] theorem modGirder_err (n : Nat) (f : Girder → Girder) : (s.modGirder n f).err = s.err := rfl
@[simp] theorem modGirder_xlt (n : Nat) (f : Girder → Girder) : (s.modGirder n f).xlt = s.xlt := rfl
@[simp] theorem modGirder_power (n : Nat) (f : Girder → Girder) : (s.modGirder n f).power = s.power := rfl
@[simp] theorem modGirder_now (n : Nat) (f : Girder → Girder) : (s.modGirder n f).now = s.now := rfl
@[simp] theorem modGirder_cur (n : Nat) (f : Girder → Girder) : (s.modGirder n f).cur = s.cur := rfl
@[simp] theorem modGirder_agenda (n : Nat) (f : Girder → Girder) : (s.modGirder n f).agenda = s.agenda := rfl
@[simp] theorem modGirder_free (n : Nat) (f : Girder → Girder) : (s.modGirder n f).free = s.free := rfl
@[simp] theorem modGirder_upsets (n : Nat) (f : Girder → Girder) : (s.modGirder n f).upsets = s.upsets := rfl

/-! ### modStack -/

@[simp] theorem modStack_cores (n : Nat) (f : Stack → Stack) : (s.modStack n f).cores = s.cores := rfl
@[simp] theorem modStack_clusters (n : Nat) (f : Stack → Stack) : (s.modStack n f).clusters = s.clusters := rfl
@[simp] theorem modStack_dies (n : Nat) (f : Stack → Stack) : (s.modStack n f).dies = s.dies := rfl
@[simp] theorem modStack_home (n : Nat) (f : Stack → Stack) : (s.modStack n f).home = s.home := rfl
@[simp] theorem modStack_hbm (n : Nat) (f : Stack → Stack) : (s.modStack n f).hbm = s.hbm := rfl
@[simp] theorem modStack_sched (n : Nat) (f : Stack → Stack) : (s.modStack n f).sched = s.sched := rfl
@[simp] theorem modStack_streams (n : Nat) (f : Stack → Stack) : (s.modStack n f).streams = s.streams := rfl
@[simp] theorem modStack_host (n : Nat) (f : Stack → Stack) : (s.modStack n f).host = s.host := rfl
@[simp] theorem modStack_err (n : Nat) (f : Stack → Stack) : (s.modStack n f).err = s.err := rfl
@[simp] theorem modStack_xlt (n : Nat) (f : Stack → Stack) : (s.modStack n f).xlt = s.xlt := rfl
@[simp] theorem modStack_power (n : Nat) (f : Stack → Stack) : (s.modStack n f).power = s.power := rfl
@[simp] theorem modStack_now (n : Nat) (f : Stack → Stack) : (s.modStack n f).now = s.now := rfl
@[simp] theorem modStack_cur (n : Nat) (f : Stack → Stack) : (s.modStack n f).cur = s.cur := rfl
@[simp] theorem modStack_agenda (n : Nat) (f : Stack → Stack) : (s.modStack n f).agenda = s.agenda := rfl
@[simp] theorem modStack_free (n : Nat) (f : Stack → Stack) : (s.modStack n f).free = s.free := rfl
@[simp] theorem modStack_upsets (n : Nat) (f : Stack → Stack) : (s.modStack n f).upsets = s.upsets := rfl

/-! ### modDie -/

@[simp] theorem modDie_cores (n : Nat) (f : Die → Die) : (s.modDie n f).cores = s.cores := rfl
@[simp] theorem modDie_clusters (n : Nat) (f : Die → Die) : (s.modDie n f).clusters = s.clusters := rfl
@[simp] theorem modDie_doms (n : Nat) (f : Die → Die) : (s.modDie n f).doms = s.doms := rfl
@[simp] theorem modDie_home (n : Nat) (f : Die → Die) : (s.modDie n f).home = s.home := rfl
@[simp] theorem modDie_hbm (n : Nat) (f : Die → Die) : (s.modDie n f).hbm = s.hbm := rfl
@[simp] theorem modDie_sched (n : Nat) (f : Die → Die) : (s.modDie n f).sched = s.sched := rfl
@[simp] theorem modDie_streams (n : Nat) (f : Die → Die) : (s.modDie n f).streams = s.streams := rfl
@[simp] theorem modDie_host (n : Nat) (f : Die → Die) : (s.modDie n f).host = s.host := rfl
@[simp] theorem modDie_err (n : Nat) (f : Die → Die) : (s.modDie n f).err = s.err := rfl
@[simp] theorem modDie_xlt (n : Nat) (f : Die → Die) : (s.modDie n f).xlt = s.xlt := rfl
@[simp] theorem modDie_power (n : Nat) (f : Die → Die) : (s.modDie n f).power = s.power := rfl
@[simp] theorem modDie_now (n : Nat) (f : Die → Die) : (s.modDie n f).now = s.now := rfl
@[simp] theorem modDie_cur (n : Nat) (f : Die → Die) : (s.modDie n f).cur = s.cur := rfl
@[simp] theorem modDie_agenda (n : Nat) (f : Die → Die) : (s.modDie n f).agenda = s.agenda := rfl
@[simp] theorem modDie_free (n : Nat) (f : Die → Die) : (s.modDie n f).free = s.free := rfl
@[simp] theorem modDie_upsets (n : Nat) (f : Die → Die) : (s.modDie n f).upsets = s.upsets := rfl

/-! ### modCtx -/

@[simp] theorem modCtx_cores (c : Nat) (f : Ctx → Ctx) : (s.modCtx c f).cores = s.cores := rfl
@[simp] theorem modCtx_clusters (c : Nat) (f : Ctx → Ctx) : (s.modCtx c f).clusters = s.clusters := rfl
@[simp] theorem modCtx_doms (c : Nat) (f : Ctx → Ctx) : (s.modCtx c f).doms = s.doms := rfl
@[simp] theorem modCtx_dies (c : Nat) (f : Ctx → Ctx) : (s.modCtx c f).dies = s.dies := rfl
@[simp] theorem modCtx_home (c : Nat) (f : Ctx → Ctx) : (s.modCtx c f).home = s.home := rfl
@[simp] theorem modCtx_hbm (c : Nat) (f : Ctx → Ctx) : (s.modCtx c f).hbm = s.hbm := rfl
@[simp] theorem modCtx_streams (c : Nat) (f : Ctx → Ctx) : (s.modCtx c f).streams = s.streams := rfl
@[simp] theorem modCtx_host (c : Nat) (f : Ctx → Ctx) : (s.modCtx c f).host = s.host := rfl
@[simp] theorem modCtx_err (c : Nat) (f : Ctx → Ctx) : (s.modCtx c f).err = s.err := rfl
@[simp] theorem modCtx_xlt (c : Nat) (f : Ctx → Ctx) : (s.modCtx c f).xlt = s.xlt := rfl
@[simp] theorem modCtx_power (c : Nat) (f : Ctx → Ctx) : (s.modCtx c f).power = s.power := rfl
@[simp] theorem modCtx_now (c : Nat) (f : Ctx → Ctx) : (s.modCtx c f).now = s.now := rfl
@[simp] theorem modCtx_cur (c : Nat) (f : Ctx → Ctx) : (s.modCtx c f).cur = s.cur := rfl
@[simp] theorem modCtx_agenda (c : Nat) (f : Ctx → Ctx) : (s.modCtx c f).agenda = s.agenda := rfl
@[simp] theorem modCtx_free (c : Nat) (f : Ctx → Ctx) : (s.modCtx c f).free = s.free := rfl
@[simp] theorem modCtx_upsets (c : Nat) (f : Ctx → Ctx) : (s.modCtx c f).upsets = s.upsets := rfl

/-! ### modSched -/

@[simp] theorem modSched_cores (f : Sched → Sched) : (s.modSched f).cores = s.cores := rfl
@[simp] theorem modSched_clusters (f : Sched → Sched) : (s.modSched f).clusters = s.clusters := rfl
@[simp] theorem modSched_doms (f : Sched → Sched) : (s.modSched f).doms = s.doms := rfl
@[simp] theorem modSched_dies (f : Sched → Sched) : (s.modSched f).dies = s.dies := rfl
@[simp] theorem modSched_home (f : Sched → Sched) : (s.modSched f).home = s.home := rfl
@[simp] theorem modSched_hbm (f : Sched → Sched) : (s.modSched f).hbm = s.hbm := rfl
@[simp] theorem modSched_streams (f : Sched → Sched) : (s.modSched f).streams = s.streams := rfl
@[simp] theorem modSched_host (f : Sched → Sched) : (s.modSched f).host = s.host := rfl
@[simp] theorem modSched_err (f : Sched → Sched) : (s.modSched f).err = s.err := rfl
@[simp] theorem modSched_xlt (f : Sched → Sched) : (s.modSched f).xlt = s.xlt := rfl
@[simp] theorem modSched_power (f : Sched → Sched) : (s.modSched f).power = s.power := rfl
@[simp] theorem modSched_now (f : Sched → Sched) : (s.modSched f).now = s.now := rfl
@[simp] theorem modSched_cur (f : Sched → Sched) : (s.modSched f).cur = s.cur := rfl
@[simp] theorem modSched_agenda (f : Sched → Sched) : (s.modSched f).agenda = s.agenda := rfl
@[simp] theorem modSched_free (f : Sched → Sched) : (s.modSched f).free = s.free := rfl
@[simp] theorem modSched_upsets (f : Sched → Sched) : (s.modSched f).upsets = s.upsets := rfl

/-! ### modErr -/

@[simp] theorem modErr_cores (f : Err → Err) : (s.modErr f).cores = s.cores := rfl
@[simp] theorem modErr_clusters (f : Err → Err) : (s.modErr f).clusters = s.clusters := rfl
@[simp] theorem modErr_doms (f : Err → Err) : (s.modErr f).doms = s.doms := rfl
@[simp] theorem modErr_dies (f : Err → Err) : (s.modErr f).dies = s.dies := rfl
@[simp] theorem modErr_home (f : Err → Err) : (s.modErr f).home = s.home := rfl
@[simp] theorem modErr_hbm (f : Err → Err) : (s.modErr f).hbm = s.hbm := rfl
@[simp] theorem modErr_sched (f : Err → Err) : (s.modErr f).sched = s.sched := rfl
@[simp] theorem modErr_streams (f : Err → Err) : (s.modErr f).streams = s.streams := rfl
@[simp] theorem modErr_host (f : Err → Err) : (s.modErr f).host = s.host := rfl
@[simp] theorem modErr_xlt (f : Err → Err) : (s.modErr f).xlt = s.xlt := rfl
@[simp] theorem modErr_power (f : Err → Err) : (s.modErr f).power = s.power := rfl
@[simp] theorem modErr_now (f : Err → Err) : (s.modErr f).now = s.now := rfl
@[simp] theorem modErr_cur (f : Err → Err) : (s.modErr f).cur = s.cur := rfl
@[simp] theorem modErr_agenda (f : Err → Err) : (s.modErr f).agenda = s.agenda := rfl
@[simp] theorem modErr_free (f : Err → Err) : (s.modErr f).free = s.free := rfl
@[simp] theorem modErr_upsets (f : Err → Err) : (s.modErr f).upsets = s.upsets := rfl

/-! ### modHost -/

@[simp] theorem modHost_cores (f : HostSide → HostSide) : (s.modHost f).cores = s.cores := rfl
@[simp] theorem modHost_clusters (f : HostSide → HostSide) : (s.modHost f).clusters = s.clusters := rfl
@[simp] theorem modHost_doms (f : HostSide → HostSide) : (s.modHost f).doms = s.doms := rfl
@[simp] theorem modHost_dies (f : HostSide → HostSide) : (s.modHost f).dies = s.dies := rfl
@[simp] theorem modHost_home (f : HostSide → HostSide) : (s.modHost f).home = s.home := rfl
@[simp] theorem modHost_hbm (f : HostSide → HostSide) : (s.modHost f).hbm = s.hbm := rfl
@[simp] theorem modHost_sched (f : HostSide → HostSide) : (s.modHost f).sched = s.sched := rfl
@[simp] theorem modHost_streams (f : HostSide → HostSide) : (s.modHost f).streams = s.streams := rfl
@[simp] theorem modHost_err (f : HostSide → HostSide) : (s.modHost f).err = s.err := rfl
@[simp] theorem modHost_xlt (f : HostSide → HostSide) : (s.modHost f).xlt = s.xlt := rfl
@[simp] theorem modHost_power (f : HostSide → HostSide) : (s.modHost f).power = s.power := rfl
@[simp] theorem modHost_now (f : HostSide → HostSide) : (s.modHost f).now = s.now := rfl
@[simp] theorem modHost_cur (f : HostSide → HostSide) : (s.modHost f).cur = s.cur := rfl
@[simp] theorem modHost_agenda (f : HostSide → HostSide) : (s.modHost f).agenda = s.agenda := rfl
@[simp] theorem modHost_free (f : HostSide → HostSide) : (s.modHost f).free = s.free := rfl
@[simp] theorem modHost_upsets (f : HostSide → HostSide) : (s.modHost f).upsets = s.upsets := rfl

/-! ### modStream -/

@[simp] theorem modStream_cores (i : Nat) (f : Stream → Stream) : (s.modStream i f).cores = s.cores := rfl
@[simp] theorem modStream_clusters (i : Nat) (f : Stream → Stream) : (s.modStream i f).clusters = s.clusters := rfl
@[simp] theorem modStream_doms (i : Nat) (f : Stream → Stream) : (s.modStream i f).doms = s.doms := rfl
@[simp] theorem modStream_dies (i : Nat) (f : Stream → Stream) : (s.modStream i f).dies = s.dies := rfl
@[simp] theorem modStream_home (i : Nat) (f : Stream → Stream) : (s.modStream i f).home = s.home := rfl
@[simp] theorem modStream_hbm (i : Nat) (f : Stream → Stream) : (s.modStream i f).hbm = s.hbm := rfl
@[simp] theorem modStream_sched (i : Nat) (f : Stream → Stream) : (s.modStream i f).sched = s.sched := rfl
@[simp] theorem modStream_host (i : Nat) (f : Stream → Stream) : (s.modStream i f).host = s.host := rfl
@[simp] theorem modStream_err (i : Nat) (f : Stream → Stream) : (s.modStream i f).err = s.err := rfl
@[simp] theorem modStream_xlt (i : Nat) (f : Stream → Stream) : (s.modStream i f).xlt = s.xlt := rfl
@[simp] theorem modStream_power (i : Nat) (f : Stream → Stream) : (s.modStream i f).power = s.power := rfl
@[simp] theorem modStream_now (i : Nat) (f : Stream → Stream) : (s.modStream i f).now = s.now := rfl
@[simp] theorem modStream_cur (i : Nat) (f : Stream → Stream) : (s.modStream i f).cur = s.cur := rfl
@[simp] theorem modStream_agenda (i : Nat) (f : Stream → Stream) : (s.modStream i f).agenda = s.agenda := rfl
@[simp] theorem modStream_free (i : Nat) (f : Stream → Stream) : (s.modStream i f).free = s.free := rfl
@[simp] theorem modStream_upsets (i : Nat) (f : Stream → Stream) : (s.modStream i f).upsets = s.upsets := rfl

/-! ### modStrand -/

@[simp] theorem modStrand_clusters (k : Nat) (f : Strand → Strand) : (s.modStrand k f).clusters = s.clusters := rfl
@[simp] theorem modStrand_doms (k : Nat) (f : Strand → Strand) : (s.modStrand k f).doms = s.doms := rfl
@[simp] theorem modStrand_dies (k : Nat) (f : Strand → Strand) : (s.modStrand k f).dies = s.dies := rfl
@[simp] theorem modStrand_home (k : Nat) (f : Strand → Strand) : (s.modStrand k f).home = s.home := rfl
@[simp] theorem modStrand_hbm (k : Nat) (f : Strand → Strand) : (s.modStrand k f).hbm = s.hbm := rfl
@[simp] theorem modStrand_sched (k : Nat) (f : Strand → Strand) : (s.modStrand k f).sched = s.sched := rfl
@[simp] theorem modStrand_streams (k : Nat) (f : Strand → Strand) : (s.modStrand k f).streams = s.streams := rfl
@[simp] theorem modStrand_host (k : Nat) (f : Strand → Strand) : (s.modStrand k f).host = s.host := rfl
@[simp] theorem modStrand_err (k : Nat) (f : Strand → Strand) : (s.modStrand k f).err = s.err := rfl
@[simp] theorem modStrand_xlt (k : Nat) (f : Strand → Strand) : (s.modStrand k f).xlt = s.xlt := rfl
@[simp] theorem modStrand_power (k : Nat) (f : Strand → Strand) : (s.modStrand k f).power = s.power := rfl
@[simp] theorem modStrand_now (k : Nat) (f : Strand → Strand) : (s.modStrand k f).now = s.now := rfl
@[simp] theorem modStrand_cur (k : Nat) (f : Strand → Strand) : (s.modStrand k f).cur = s.cur := rfl
@[simp] theorem modStrand_agenda (k : Nat) (f : Strand → Strand) : (s.modStrand k f).agenda = s.agenda := rfl
@[simp] theorem modStrand_free (k : Nat) (f : Strand → Strand) : (s.modStrand k f).free = s.free := rfl
@[simp] theorem modStrand_upsets (k : Nat) (f : Strand → Strand) : (s.modStrand k f).upsets = s.upsets := rfl

/-! ### modSt -/

@[simp] theorem modSt_clusters (f : Strand → Strand) : (s.modSt f).clusters = s.clusters := rfl
@[simp] theorem modSt_doms (f : Strand → Strand) : (s.modSt f).doms = s.doms := rfl
@[simp] theorem modSt_dies (f : Strand → Strand) : (s.modSt f).dies = s.dies := rfl
@[simp] theorem modSt_home (f : Strand → Strand) : (s.modSt f).home = s.home := rfl
@[simp] theorem modSt_hbm (f : Strand → Strand) : (s.modSt f).hbm = s.hbm := rfl
@[simp] theorem modSt_sched (f : Strand → Strand) : (s.modSt f).sched = s.sched := rfl
@[simp] theorem modSt_streams (f : Strand → Strand) : (s.modSt f).streams = s.streams := rfl
@[simp] theorem modSt_host (f : Strand → Strand) : (s.modSt f).host = s.host := rfl
@[simp] theorem modSt_err (f : Strand → Strand) : (s.modSt f).err = s.err := rfl
@[simp] theorem modSt_xlt (f : Strand → Strand) : (s.modSt f).xlt = s.xlt := rfl
@[simp] theorem modSt_power (f : Strand → Strand) : (s.modSt f).power = s.power := rfl
@[simp] theorem modSt_now (f : Strand → Strand) : (s.modSt f).now = s.now := rfl
@[simp] theorem modSt_cur (f : Strand → Strand) : (s.modSt f).cur = s.cur := rfl
@[simp] theorem modSt_agenda (f : Strand → Strand) : (s.modSt f).agenda = s.agenda := rfl
@[simp] theorem modSt_free (f : Strand → Strand) : (s.modSt f).free = s.free := rfl
@[simp] theorem modSt_upsets (f : Strand → Strand) : (s.modSt f).upsets = s.upsets := rfl

/-! ### modRegs -/

@[simp] theorem modRegs_clusters (f : Regs → Regs) : (s.modRegs f).clusters = s.clusters := rfl
@[simp] theorem modRegs_doms (f : Regs → Regs) : (s.modRegs f).doms = s.doms := rfl
@[simp] theorem modRegs_dies (f : Regs → Regs) : (s.modRegs f).dies = s.dies := rfl
@[simp] theorem modRegs_home (f : Regs → Regs) : (s.modRegs f).home = s.home := rfl
@[simp] theorem modRegs_hbm (f : Regs → Regs) : (s.modRegs f).hbm = s.hbm := rfl
@[simp] theorem modRegs_sched (f : Regs → Regs) : (s.modRegs f).sched = s.sched := rfl
@[simp] theorem modRegs_streams (f : Regs → Regs) : (s.modRegs f).streams = s.streams := rfl
@[simp] theorem modRegs_host (f : Regs → Regs) : (s.modRegs f).host = s.host := rfl
@[simp] theorem modRegs_err (f : Regs → Regs) : (s.modRegs f).err = s.err := rfl
@[simp] theorem modRegs_xlt (f : Regs → Regs) : (s.modRegs f).xlt = s.xlt := rfl
@[simp] theorem modRegs_power (f : Regs → Regs) : (s.modRegs f).power = s.power := rfl
@[simp] theorem modRegs_now (f : Regs → Regs) : (s.modRegs f).now = s.now := rfl
@[simp] theorem modRegs_cur (f : Regs → Regs) : (s.modRegs f).cur = s.cur := rfl
@[simp] theorem modRegs_agenda (f : Regs → Regs) : (s.modRegs f).agenda = s.agenda := rfl
@[simp] theorem modRegs_free (f : Regs → Regs) : (s.modRegs f).free = s.free := rfl
@[simp] theorem modRegs_upsets (f : Regs → Regs) : (s.modRegs f).upsets = s.upsets := rfl

/-! ### modQs -/

@[simp] theorem modQs_clusters (f : Queues → Queues) : (s.modQs f).clusters = s.clusters := rfl
@[simp] theorem modQs_doms (f : Queues → Queues) : (s.modQs f).doms = s.doms := rfl
@[simp] theorem modQs_dies (f : Queues → Queues) : (s.modQs f).dies = s.dies := rfl
@[simp] theorem modQs_home (f : Queues → Queues) : (s.modQs f).home = s.home := rfl
@[simp] theorem modQs_hbm (f : Queues → Queues) : (s.modQs f).hbm = s.hbm := rfl
@[simp] theorem modQs_sched (f : Queues → Queues) : (s.modQs f).sched = s.sched := rfl
@[simp] theorem modQs_streams (f : Queues → Queues) : (s.modQs f).streams = s.streams := rfl
@[simp] theorem modQs_host (f : Queues → Queues) : (s.modQs f).host = s.host := rfl
@[simp] theorem modQs_err (f : Queues → Queues) : (s.modQs f).err = s.err := rfl
@[simp] theorem modQs_xlt (f : Queues → Queues) : (s.modQs f).xlt = s.xlt := rfl
@[simp] theorem modQs_power (f : Queues → Queues) : (s.modQs f).power = s.power := rfl
@[simp] theorem modQs_now (f : Queues → Queues) : (s.modQs f).now = s.now := rfl
@[simp] theorem modQs_cur (f : Queues → Queues) : (s.modQs f).cur = s.cur := rfl
@[simp] theorem modQs_agenda (f : Queues → Queues) : (s.modQs f).agenda = s.agenda := rfl
@[simp] theorem modQs_free (f : Queues → Queues) : (s.modQs f).free = s.free := rfl
@[simp] theorem modQs_upsets (f : Queues → Queues) : (s.modQs f).upsets = s.upsets := rfl

/-! ### putC -/

@[simp] theorem putC_clusters (i : Nat) (v : Bool) : (s.putC i v).clusters = s.clusters := rfl
@[simp] theorem putC_doms (i : Nat) (v : Bool) : (s.putC i v).doms = s.doms := rfl
@[simp] theorem putC_dies (i : Nat) (v : Bool) : (s.putC i v).dies = s.dies := rfl
@[simp] theorem putC_home (i : Nat) (v : Bool) : (s.putC i v).home = s.home := rfl
@[simp] theorem putC_hbm (i : Nat) (v : Bool) : (s.putC i v).hbm = s.hbm := rfl
@[simp] theorem putC_sched (i : Nat) (v : Bool) : (s.putC i v).sched = s.sched := rfl
@[simp] theorem putC_streams (i : Nat) (v : Bool) : (s.putC i v).streams = s.streams := rfl
@[simp] theorem putC_host (i : Nat) (v : Bool) : (s.putC i v).host = s.host := rfl
@[simp] theorem putC_err (i : Nat) (v : Bool) : (s.putC i v).err = s.err := rfl
@[simp] theorem putC_xlt (i : Nat) (v : Bool) : (s.putC i v).xlt = s.xlt := rfl
@[simp] theorem putC_power (i : Nat) (v : Bool) : (s.putC i v).power = s.power := rfl
@[simp] theorem putC_now (i : Nat) (v : Bool) : (s.putC i v).now = s.now := rfl
@[simp] theorem putC_cur (i : Nat) (v : Bool) : (s.putC i v).cur = s.cur := rfl
@[simp] theorem putC_agenda (i : Nat) (v : Bool) : (s.putC i v).agenda = s.agenda := rfl
@[simp] theorem putC_free (i : Nat) (v : Bool) : (s.putC i v).free = s.free := rfl
@[simp] theorem putC_upsets (i : Nat) (v : Bool) : (s.putC i v).upsets = s.upsets := rfl

/-! ### putB -/

@[simp] theorem putB_clusters (i v : Nat) : (s.putB i v).clusters = s.clusters := rfl
@[simp] theorem putB_doms (i v : Nat) : (s.putB i v).doms = s.doms := rfl
@[simp] theorem putB_dies (i v : Nat) : (s.putB i v).dies = s.dies := rfl
@[simp] theorem putB_home (i v : Nat) : (s.putB i v).home = s.home := rfl
@[simp] theorem putB_hbm (i v : Nat) : (s.putB i v).hbm = s.hbm := rfl
@[simp] theorem putB_sched (i v : Nat) : (s.putB i v).sched = s.sched := rfl
@[simp] theorem putB_streams (i v : Nat) : (s.putB i v).streams = s.streams := rfl
@[simp] theorem putB_host (i v : Nat) : (s.putB i v).host = s.host := rfl
@[simp] theorem putB_err (i v : Nat) : (s.putB i v).err = s.err := rfl
@[simp] theorem putB_xlt (i v : Nat) : (s.putB i v).xlt = s.xlt := rfl
@[simp] theorem putB_power (i v : Nat) : (s.putB i v).power = s.power := rfl
@[simp] theorem putB_now (i v : Nat) : (s.putB i v).now = s.now := rfl
@[simp] theorem putB_cur (i v : Nat) : (s.putB i v).cur = s.cur := rfl
@[simp] theorem putB_agenda (i v : Nat) : (s.putB i v).agenda = s.agenda := rfl
@[simp] theorem putB_free (i v : Nat) : (s.putB i v).free = s.free := rfl
@[simp] theorem putB_upsets (i v : Nat) : (s.putB i v).upsets = s.upsets := rfl

/-! ### raise -/

@[simp] theorem raise_clusters (f : Nat) : (s.raise f).clusters = s.clusters := rfl
@[simp] theorem raise_doms (f : Nat) : (s.raise f).doms = s.doms := rfl
@[simp] theorem raise_dies (f : Nat) : (s.raise f).dies = s.dies := rfl
@[simp] theorem raise_home (f : Nat) : (s.raise f).home = s.home := rfl
@[simp] theorem raise_hbm (f : Nat) : (s.raise f).hbm = s.hbm := rfl
@[simp] theorem raise_sched (f : Nat) : (s.raise f).sched = s.sched := rfl
@[simp] theorem raise_streams (f : Nat) : (s.raise f).streams = s.streams := rfl
@[simp] theorem raise_host (f : Nat) : (s.raise f).host = s.host := rfl
@[simp] theorem raise_err (f : Nat) : (s.raise f).err = s.err := rfl
@[simp] theorem raise_xlt (f : Nat) : (s.raise f).xlt = s.xlt := rfl
@[simp] theorem raise_power (f : Nat) : (s.raise f).power = s.power := rfl
@[simp] theorem raise_now (f : Nat) : (s.raise f).now = s.now := rfl
@[simp] theorem raise_cur (f : Nat) : (s.raise f).cur = s.cur := rfl
@[simp] theorem raise_agenda (f : Nat) : (s.raise f).agenda = s.agenda := rfl
@[simp] theorem raise_free (f : Nat) : (s.raise f).free = s.free := rfl
@[simp] theorem raise_upsets (f : Nat) : (s.raise f).upsets = s.upsets := rfl

/-! ### raiseBy -/

@[simp] theorem raiseBy_clusters (bound f : Nat) : (s.raiseBy bound f).clusters = s.clusters := rfl
@[simp] theorem raiseBy_doms (bound f : Nat) : (s.raiseBy bound f).doms = s.doms := rfl
@[simp] theorem raiseBy_dies (bound f : Nat) : (s.raiseBy bound f).dies = s.dies := rfl
@[simp] theorem raiseBy_home (bound f : Nat) : (s.raiseBy bound f).home = s.home := rfl
@[simp] theorem raiseBy_hbm (bound f : Nat) : (s.raiseBy bound f).hbm = s.hbm := rfl
@[simp] theorem raiseBy_sched (bound f : Nat) : (s.raiseBy bound f).sched = s.sched := rfl
@[simp] theorem raiseBy_streams (bound f : Nat) : (s.raiseBy bound f).streams = s.streams := rfl
@[simp] theorem raiseBy_host (bound f : Nat) : (s.raiseBy bound f).host = s.host := rfl
@[simp] theorem raiseBy_err (bound f : Nat) : (s.raiseBy bound f).err = s.err := rfl
@[simp] theorem raiseBy_xlt (bound f : Nat) : (s.raiseBy bound f).xlt = s.xlt := rfl
@[simp] theorem raiseBy_power (bound f : Nat) : (s.raiseBy bound f).power = s.power := rfl
@[simp] theorem raiseBy_now (bound f : Nat) : (s.raiseBy bound f).now = s.now := rfl
@[simp] theorem raiseBy_cur (bound f : Nat) : (s.raiseBy bound f).cur = s.cur := rfl
@[simp] theorem raiseBy_agenda (bound f : Nat) : (s.raiseBy bound f).agenda = s.agenda := rfl
@[simp] theorem raiseBy_free (bound f : Nat) : (s.raiseBy bound f).free = s.free := rfl
@[simp] theorem raiseBy_upsets (bound f : Nat) : (s.raiseBy bound f).upsets = s.upsets := rfl

/-! ### clearFlags -/

@[simp] theorem clearFlags_clusters (v : Nat) : (s.clearFlags v).clusters = s.clusters := rfl
@[simp] theorem clearFlags_doms (v : Nat) : (s.clearFlags v).doms = s.doms := rfl
@[simp] theorem clearFlags_dies (v : Nat) : (s.clearFlags v).dies = s.dies := rfl
@[simp] theorem clearFlags_home (v : Nat) : (s.clearFlags v).home = s.home := rfl
@[simp] theorem clearFlags_hbm (v : Nat) : (s.clearFlags v).hbm = s.hbm := rfl
@[simp] theorem clearFlags_sched (v : Nat) : (s.clearFlags v).sched = s.sched := rfl
@[simp] theorem clearFlags_streams (v : Nat) : (s.clearFlags v).streams = s.streams := rfl
@[simp] theorem clearFlags_host (v : Nat) : (s.clearFlags v).host = s.host := rfl
@[simp] theorem clearFlags_err (v : Nat) : (s.clearFlags v).err = s.err := rfl
@[simp] theorem clearFlags_xlt (v : Nat) : (s.clearFlags v).xlt = s.xlt := rfl
@[simp] theorem clearFlags_power (v : Nat) : (s.clearFlags v).power = s.power := rfl
@[simp] theorem clearFlags_now (v : Nat) : (s.clearFlags v).now = s.now := rfl
@[simp] theorem clearFlags_cur (v : Nat) : (s.clearFlags v).cur = s.cur := rfl
@[simp] theorem clearFlags_agenda (v : Nat) : (s.clearFlags v).agenda = s.agenda := rfl
@[simp] theorem clearFlags_free (v : Nat) : (s.clearFlags v).free = s.free := rfl
@[simp] theorem clearFlags_upsets (v : Nat) : (s.clearFlags v).upsets = s.upsets := rfl

/-! ### join -/

@[simp] theorem join_clusters (e p : Eng) : (s.join e p).clusters = s.clusters := rfl
@[simp] theorem join_doms (e p : Eng) : (s.join e p).doms = s.doms := rfl
@[simp] theorem join_dies (e p : Eng) : (s.join e p).dies = s.dies := rfl
@[simp] theorem join_home (e p : Eng) : (s.join e p).home = s.home := rfl
@[simp] theorem join_hbm (e p : Eng) : (s.join e p).hbm = s.hbm := rfl
@[simp] theorem join_sched (e p : Eng) : (s.join e p).sched = s.sched := rfl
@[simp] theorem join_streams (e p : Eng) : (s.join e p).streams = s.streams := rfl
@[simp] theorem join_host (e p : Eng) : (s.join e p).host = s.host := rfl
@[simp] theorem join_err (e p : Eng) : (s.join e p).err = s.err := rfl
@[simp] theorem join_xlt (e p : Eng) : (s.join e p).xlt = s.xlt := rfl
@[simp] theorem join_power (e p : Eng) : (s.join e p).power = s.power := rfl
@[simp] theorem join_now (e p : Eng) : (s.join e p).now = s.now := rfl
@[simp] theorem join_cur (e p : Eng) : (s.join e p).cur = s.cur := rfl
@[simp] theorem join_agenda (e p : Eng) : (s.join e p).agenda = s.agenda := rfl
@[simp] theorem join_free (e p : Eng) : (s.join e p).free = s.free := rfl
@[simp] theorem join_upsets (e p : Eng) : (s.join e p).upsets = s.upsets := rfl

/-! ### setT -/

@[simp] theorem setT_clusters (n v : Nat) (h : Hazard) (rets : List Ret) : (s.setT n v h rets).clusters = s.clusters := rfl
@[simp] theorem setT_doms (n v : Nat) (h : Hazard) (rets : List Ret) : (s.setT n v h rets).doms = s.doms := rfl
@[simp] theorem setT_dies (n v : Nat) (h : Hazard) (rets : List Ret) : (s.setT n v h rets).dies = s.dies := rfl
@[simp] theorem setT_home (n v : Nat) (h : Hazard) (rets : List Ret) : (s.setT n v h rets).home = s.home := rfl
@[simp] theorem setT_hbm (n v : Nat) (h : Hazard) (rets : List Ret) : (s.setT n v h rets).hbm = s.hbm := rfl
@[simp] theorem setT_sched (n v : Nat) (h : Hazard) (rets : List Ret) : (s.setT n v h rets).sched = s.sched := rfl
@[simp] theorem setT_streams (n v : Nat) (h : Hazard) (rets : List Ret) : (s.setT n v h rets).streams = s.streams := rfl
@[simp] theorem setT_host (n v : Nat) (h : Hazard) (rets : List Ret) : (s.setT n v h rets).host = s.host := rfl
@[simp] theorem setT_err (n v : Nat) (h : Hazard) (rets : List Ret) : (s.setT n v h rets).err = s.err := rfl
@[simp] theorem setT_xlt (n v : Nat) (h : Hazard) (rets : List Ret) : (s.setT n v h rets).xlt = s.xlt := rfl
@[simp] theorem setT_power (n v : Nat) (h : Hazard) (rets : List Ret) : (s.setT n v h rets).power = s.power := rfl
@[simp] theorem setT_now (n v : Nat) (h : Hazard) (rets : List Ret) : (s.setT n v h rets).now = s.now := rfl
@[simp] theorem setT_cur (n v : Nat) (h : Hazard) (rets : List Ret) : (s.setT n v h rets).cur = s.cur := rfl
@[simp] theorem setT_agenda (n v : Nat) (h : Hazard) (rets : List Ret) : (s.setT n v h rets).agenda = s.agenda := rfl
@[simp] theorem setT_free (n v : Nat) (h : Hazard) (rets : List Ret) : (s.setT n v h rets).free = s.free := rfl
@[simp] theorem setT_upsets (n v : Nat) (h : Hazard) (rets : List Ret) : (s.setT n v h rets).upsets = s.upsets := rfl

/-! ### wrV -/

@[simp] theorem wrV_clusters (n bound w mask v : Nat) : (s.wrV n bound w mask v).clusters = s.clusters := rfl
@[simp] theorem wrV_doms (n bound w mask v : Nat) : (s.wrV n bound w mask v).doms = s.doms := rfl
@[simp] theorem wrV_dies (n bound w mask v : Nat) : (s.wrV n bound w mask v).dies = s.dies := rfl
@[simp] theorem wrV_home (n bound w mask v : Nat) : (s.wrV n bound w mask v).home = s.home := rfl
@[simp] theorem wrV_hbm (n bound w mask v : Nat) : (s.wrV n bound w mask v).hbm = s.hbm := rfl
@[simp] theorem wrV_sched (n bound w mask v : Nat) : (s.wrV n bound w mask v).sched = s.sched := rfl
@[simp] theorem wrV_streams (n bound w mask v : Nat) : (s.wrV n bound w mask v).streams = s.streams := rfl
@[simp] theorem wrV_host (n bound w mask v : Nat) : (s.wrV n bound w mask v).host = s.host := rfl
@[simp] theorem wrV_err (n bound w mask v : Nat) : (s.wrV n bound w mask v).err = s.err := rfl
@[simp] theorem wrV_xlt (n bound w mask v : Nat) : (s.wrV n bound w mask v).xlt = s.xlt := rfl
@[simp] theorem wrV_power (n bound w mask v : Nat) : (s.wrV n bound w mask v).power = s.power := rfl
@[simp] theorem wrV_now (n bound w mask v : Nat) : (s.wrV n bound w mask v).now = s.now := rfl
@[simp] theorem wrV_cur (n bound w mask v : Nat) : (s.wrV n bound w mask v).cur = s.cur := rfl
@[simp] theorem wrV_agenda (n bound w mask v : Nat) : (s.wrV n bound w mask v).agenda = s.agenda := rfl
@[simp] theorem wrV_free (n bound w mask v : Nat) : (s.wrV n bound w mask v).free = s.free := rfl
@[simp] theorem wrV_upsets (n bound w mask v : Nat) : (s.wrV n bound w mask v).upsets = s.upsets := rfl

/-! ### putT -/

@[simp] theorem putT_clusters (n mask v : Nat) (was : Option Nat) : (s.putT n mask v was).clusters = s.clusters := rfl
@[simp] theorem putT_doms (n mask v : Nat) (was : Option Nat) : (s.putT n mask v was).doms = s.doms := rfl
@[simp] theorem putT_dies (n mask v : Nat) (was : Option Nat) : (s.putT n mask v was).dies = s.dies := rfl
@[simp] theorem putT_home (n mask v : Nat) (was : Option Nat) : (s.putT n mask v was).home = s.home := rfl
@[simp] theorem putT_hbm (n mask v : Nat) (was : Option Nat) : (s.putT n mask v was).hbm = s.hbm := rfl
@[simp] theorem putT_sched (n mask v : Nat) (was : Option Nat) : (s.putT n mask v was).sched = s.sched := rfl
@[simp] theorem putT_streams (n mask v : Nat) (was : Option Nat) : (s.putT n mask v was).streams = s.streams := rfl
@[simp] theorem putT_host (n mask v : Nat) (was : Option Nat) : (s.putT n mask v was).host = s.host := rfl
@[simp] theorem putT_err (n mask v : Nat) (was : Option Nat) : (s.putT n mask v was).err = s.err := rfl
@[simp] theorem putT_xlt (n mask v : Nat) (was : Option Nat) : (s.putT n mask v was).xlt = s.xlt := rfl
@[simp] theorem putT_power (n mask v : Nat) (was : Option Nat) : (s.putT n mask v was).power = s.power := rfl
@[simp] theorem putT_now (n mask v : Nat) (was : Option Nat) : (s.putT n mask v was).now = s.now := rfl
@[simp] theorem putT_cur (n mask v : Nat) (was : Option Nat) : (s.putT n mask v was).cur = s.cur := rfl
@[simp] theorem putT_agenda (n mask v : Nat) (was : Option Nat) : (s.putT n mask v was).agenda = s.agenda := rfl
@[simp] theorem putT_free (n mask v : Nat) (was : Option Nat) : (s.putT n mask v was).free = s.free := rfl
@[simp] theorem putT_upsets (n mask v : Nat) (was : Option Nat) : (s.putT n mask v was).upsets = s.upsets := rfl

/-! ### wrT -/

@[simp] theorem wrT_clusters (n bound w mask v : Nat) : (s.wrT n bound w mask v).clusters = s.clusters := rfl
@[simp] theorem wrT_doms (n bound w mask v : Nat) : (s.wrT n bound w mask v).doms = s.doms := rfl
@[simp] theorem wrT_dies (n bound w mask v : Nat) : (s.wrT n bound w mask v).dies = s.dies := rfl
@[simp] theorem wrT_home (n bound w mask v : Nat) : (s.wrT n bound w mask v).home = s.home := rfl
@[simp] theorem wrT_hbm (n bound w mask v : Nat) : (s.wrT n bound w mask v).hbm = s.hbm := rfl
@[simp] theorem wrT_sched (n bound w mask v : Nat) : (s.wrT n bound w mask v).sched = s.sched := rfl
@[simp] theorem wrT_streams (n bound w mask v : Nat) : (s.wrT n bound w mask v).streams = s.streams := rfl
@[simp] theorem wrT_host (n bound w mask v : Nat) : (s.wrT n bound w mask v).host = s.host := rfl
@[simp] theorem wrT_err (n bound w mask v : Nat) : (s.wrT n bound w mask v).err = s.err := rfl
@[simp] theorem wrT_xlt (n bound w mask v : Nat) : (s.wrT n bound w mask v).xlt = s.xlt := rfl
@[simp] theorem wrT_power (n bound w mask v : Nat) : (s.wrT n bound w mask v).power = s.power := rfl
@[simp] theorem wrT_now (n bound w mask v : Nat) : (s.wrT n bound w mask v).now = s.now := rfl
@[simp] theorem wrT_cur (n bound w mask v : Nat) : (s.wrT n bound w mask v).cur = s.cur := rfl
@[simp] theorem wrT_agenda (n bound w mask v : Nat) : (s.wrT n bound w mask v).agenda = s.agenda := rfl
@[simp] theorem wrT_free (n bound w mask v : Nat) : (s.wrT n bound w mask v).free = s.free := rfl
@[simp] theorem wrT_upsets (n bound w mask v : Nat) : (s.wrT n bound w mask v).upsets = s.upsets := rfl

/-! ### putQueue -/

@[simp] theorem putQueue_clusters (q : Nat) (l : List (Option Dbl)) : (s.putQueue q l).clusters = s.clusters := rfl
@[simp] theorem putQueue_doms (q : Nat) (l : List (Option Dbl)) : (s.putQueue q l).doms = s.doms := rfl
@[simp] theorem putQueue_dies (q : Nat) (l : List (Option Dbl)) : (s.putQueue q l).dies = s.dies := rfl
@[simp] theorem putQueue_home (q : Nat) (l : List (Option Dbl)) : (s.putQueue q l).home = s.home := rfl
@[simp] theorem putQueue_hbm (q : Nat) (l : List (Option Dbl)) : (s.putQueue q l).hbm = s.hbm := rfl
@[simp] theorem putQueue_sched (q : Nat) (l : List (Option Dbl)) : (s.putQueue q l).sched = s.sched := rfl
@[simp] theorem putQueue_streams (q : Nat) (l : List (Option Dbl)) : (s.putQueue q l).streams = s.streams := rfl
@[simp] theorem putQueue_host (q : Nat) (l : List (Option Dbl)) : (s.putQueue q l).host = s.host := rfl
@[simp] theorem putQueue_err (q : Nat) (l : List (Option Dbl)) : (s.putQueue q l).err = s.err := rfl
@[simp] theorem putQueue_xlt (q : Nat) (l : List (Option Dbl)) : (s.putQueue q l).xlt = s.xlt := rfl
@[simp] theorem putQueue_power (q : Nat) (l : List (Option Dbl)) : (s.putQueue q l).power = s.power := rfl
@[simp] theorem putQueue_now (q : Nat) (l : List (Option Dbl)) : (s.putQueue q l).now = s.now := rfl
@[simp] theorem putQueue_cur (q : Nat) (l : List (Option Dbl)) : (s.putQueue q l).cur = s.cur := rfl
@[simp] theorem putQueue_agenda (q : Nat) (l : List (Option Dbl)) : (s.putQueue q l).agenda = s.agenda := rfl
@[simp] theorem putQueue_free (q : Nat) (l : List (Option Dbl)) : (s.putQueue q l).free = s.free := rfl
@[simp] theorem putQueue_upsets (q : Nat) (l : List (Option Dbl)) : (s.putQueue q l).upsets = s.upsets := rfl

/-! ### putOq -/

@[simp] theorem putOq_clusters (e : Eng) (l : List Bool) : (s.putOq e l).clusters = s.clusters := rfl
@[simp] theorem putOq_doms (e : Eng) (l : List Bool) : (s.putOq e l).doms = s.doms := rfl
@[simp] theorem putOq_dies (e : Eng) (l : List Bool) : (s.putOq e l).dies = s.dies := rfl
@[simp] theorem putOq_home (e : Eng) (l : List Bool) : (s.putOq e l).home = s.home := rfl
@[simp] theorem putOq_hbm (e : Eng) (l : List Bool) : (s.putOq e l).hbm = s.hbm := rfl
@[simp] theorem putOq_sched (e : Eng) (l : List Bool) : (s.putOq e l).sched = s.sched := rfl
@[simp] theorem putOq_streams (e : Eng) (l : List Bool) : (s.putOq e l).streams = s.streams := rfl
@[simp] theorem putOq_host (e : Eng) (l : List Bool) : (s.putOq e l).host = s.host := rfl
@[simp] theorem putOq_err (e : Eng) (l : List Bool) : (s.putOq e l).err = s.err := rfl
@[simp] theorem putOq_xlt (e : Eng) (l : List Bool) : (s.putOq e l).xlt = s.xlt := rfl
@[simp] theorem putOq_power (e : Eng) (l : List Bool) : (s.putOq e l).power = s.power := rfl
@[simp] theorem putOq_now (e : Eng) (l : List Bool) : (s.putOq e l).now = s.now := rfl
@[simp] theorem putOq_cur (e : Eng) (l : List Bool) : (s.putOq e l).cur = s.cur := rfl
@[simp] theorem putOq_agenda (e : Eng) (l : List Bool) : (s.putOq e l).agenda = s.agenda := rfl
@[simp] theorem putOq_free (e : Eng) (l : List Bool) : (s.putOq e l).free = s.free := rfl
@[simp] theorem putOq_upsets (e : Eng) (l : List Bool) : (s.putOq e l).upsets = s.upsets := rfl

/-! ### retire -/

@[simp] theorem retire_clusters (e : Eng) : (s.retire e).clusters = s.clusters := rfl
@[simp] theorem retire_doms (e : Eng) : (s.retire e).doms = s.doms := rfl
@[simp] theorem retire_dies (e : Eng) : (s.retire e).dies = s.dies := rfl
@[simp] theorem retire_home (e : Eng) : (s.retire e).home = s.home := rfl
@[simp] theorem retire_hbm (e : Eng) : (s.retire e).hbm = s.hbm := rfl
@[simp] theorem retire_sched (e : Eng) : (s.retire e).sched = s.sched := rfl
@[simp] theorem retire_streams (e : Eng) : (s.retire e).streams = s.streams := rfl
@[simp] theorem retire_host (e : Eng) : (s.retire e).host = s.host := rfl
@[simp] theorem retire_err (e : Eng) : (s.retire e).err = s.err := rfl
@[simp] theorem retire_xlt (e : Eng) : (s.retire e).xlt = s.xlt := rfl
@[simp] theorem retire_power (e : Eng) : (s.retire e).power = s.power := rfl
@[simp] theorem retire_now (e : Eng) : (s.retire e).now = s.now := rfl
@[simp] theorem retire_cur (e : Eng) : (s.retire e).cur = s.cur := rfl
@[simp] theorem retire_agenda (e : Eng) : (s.retire e).agenda = s.agenda := rfl
@[simp] theorem retire_free (e : Eng) : (s.retire e).free = s.free := rfl
@[simp] theorem retire_upsets (e : Eng) : (s.retire e).upsets = s.upsets := rfl

/-! ### jump -/

@[simp] theorem jump_clusters (e : Eng) (taken : Bool) (target : Nat) : (s.jump e taken target).clusters = s.clusters := rfl
@[simp] theorem jump_doms (e : Eng) (taken : Bool) (target : Nat) : (s.jump e taken target).doms = s.doms := rfl
@[simp] theorem jump_dies (e : Eng) (taken : Bool) (target : Nat) : (s.jump e taken target).dies = s.dies := rfl
@[simp] theorem jump_home (e : Eng) (taken : Bool) (target : Nat) : (s.jump e taken target).home = s.home := rfl
@[simp] theorem jump_hbm (e : Eng) (taken : Bool) (target : Nat) : (s.jump e taken target).hbm = s.hbm := rfl
@[simp] theorem jump_sched (e : Eng) (taken : Bool) (target : Nat) : (s.jump e taken target).sched = s.sched := rfl
@[simp] theorem jump_streams (e : Eng) (taken : Bool) (target : Nat) : (s.jump e taken target).streams = s.streams := rfl
@[simp] theorem jump_host (e : Eng) (taken : Bool) (target : Nat) : (s.jump e taken target).host = s.host := rfl
@[simp] theorem jump_err (e : Eng) (taken : Bool) (target : Nat) : (s.jump e taken target).err = s.err := rfl
@[simp] theorem jump_xlt (e : Eng) (taken : Bool) (target : Nat) : (s.jump e taken target).xlt = s.xlt := rfl
@[simp] theorem jump_power (e : Eng) (taken : Bool) (target : Nat) : (s.jump e taken target).power = s.power := rfl
@[simp] theorem jump_now (e : Eng) (taken : Bool) (target : Nat) : (s.jump e taken target).now = s.now := rfl
@[simp] theorem jump_cur (e : Eng) (taken : Bool) (target : Nat) : (s.jump e taken target).cur = s.cur := rfl
@[simp] theorem jump_agenda (e : Eng) (taken : Bool) (target : Nat) : (s.jump e taken target).agenda = s.agenda := rfl
@[simp] theorem jump_free (e : Eng) (taken : Bool) (target : Nat) : (s.jump e taken target).free = s.free := rfl
@[simp] theorem jump_upsets (e : Eng) (taken : Bool) (target : Nat) : (s.jump e taken target).upsets = s.upsets := rfl

/-! ### setDrain -/

@[simp] theorem setDrain_clusters (e : Eng) (n : Nat) : (s.setDrain e n).clusters = s.clusters := rfl
@[simp] theorem setDrain_doms (e : Eng) (n : Nat) : (s.setDrain e n).doms = s.doms := rfl
@[simp] theorem setDrain_dies (e : Eng) (n : Nat) : (s.setDrain e n).dies = s.dies := rfl
@[simp] theorem setDrain_home (e : Eng) (n : Nat) : (s.setDrain e n).home = s.home := rfl
@[simp] theorem setDrain_hbm (e : Eng) (n : Nat) : (s.setDrain e n).hbm = s.hbm := rfl
@[simp] theorem setDrain_sched (e : Eng) (n : Nat) : (s.setDrain e n).sched = s.sched := rfl
@[simp] theorem setDrain_streams (e : Eng) (n : Nat) : (s.setDrain e n).streams = s.streams := rfl
@[simp] theorem setDrain_host (e : Eng) (n : Nat) : (s.setDrain e n).host = s.host := rfl
@[simp] theorem setDrain_err (e : Eng) (n : Nat) : (s.setDrain e n).err = s.err := rfl
@[simp] theorem setDrain_xlt (e : Eng) (n : Nat) : (s.setDrain e n).xlt = s.xlt := rfl
@[simp] theorem setDrain_power (e : Eng) (n : Nat) : (s.setDrain e n).power = s.power := rfl
@[simp] theorem setDrain_now (e : Eng) (n : Nat) : (s.setDrain e n).now = s.now := rfl
@[simp] theorem setDrain_cur (e : Eng) (n : Nat) : (s.setDrain e n).cur = s.cur := rfl
@[simp] theorem setDrain_agenda (e : Eng) (n : Nat) : (s.setDrain e n).agenda = s.agenda := rfl
@[simp] theorem setDrain_free (e : Eng) (n : Nat) : (s.setDrain e n).free = s.free := rfl
@[simp] theorem setDrain_upsets (e : Eng) (n : Nat) : (s.setDrain e n).upsets = s.upsets := rfl

/-! ### putS -/

@[simp] theorem putS_clusters (n : Nat) (v : Dbl) : (s.putS n v).clusters = s.clusters := by
  unfold State.putS; split <;> rfl
@[simp] theorem putS_doms (n : Nat) (v : Dbl) : (s.putS n v).doms = s.doms := by
  unfold State.putS; split <;> rfl
@[simp] theorem putS_dies (n : Nat) (v : Dbl) : (s.putS n v).dies = s.dies := by
  unfold State.putS; split <;> rfl
@[simp] theorem putS_home (n : Nat) (v : Dbl) : (s.putS n v).home = s.home := by
  unfold State.putS; split <;> rfl
@[simp] theorem putS_hbm (n : Nat) (v : Dbl) : (s.putS n v).hbm = s.hbm := by
  unfold State.putS; split <;> rfl
@[simp] theorem putS_sched (n : Nat) (v : Dbl) : (s.putS n v).sched = s.sched := by
  unfold State.putS; split <;> rfl
@[simp] theorem putS_streams (n : Nat) (v : Dbl) : (s.putS n v).streams = s.streams := by
  unfold State.putS; split <;> rfl
@[simp] theorem putS_host (n : Nat) (v : Dbl) : (s.putS n v).host = s.host := by
  unfold State.putS; split <;> rfl
@[simp] theorem putS_err (n : Nat) (v : Dbl) : (s.putS n v).err = s.err := by
  unfold State.putS; split <;> rfl
@[simp] theorem putS_xlt (n : Nat) (v : Dbl) : (s.putS n v).xlt = s.xlt := by
  unfold State.putS; split <;> rfl
@[simp] theorem putS_power (n : Nat) (v : Dbl) : (s.putS n v).power = s.power := by
  unfold State.putS; split <;> rfl
@[simp] theorem putS_now (n : Nat) (v : Dbl) : (s.putS n v).now = s.now := by
  unfold State.putS; split <;> rfl
@[simp] theorem putS_cur (n : Nat) (v : Dbl) : (s.putS n v).cur = s.cur := by
  unfold State.putS; split <;> rfl
@[simp] theorem putS_agenda (n : Nat) (v : Dbl) : (s.putS n v).agenda = s.agenda := by
  unfold State.putS; split <;> rfl
@[simp] theorem putS_free (n : Nat) (v : Dbl) : (s.putS n v).free = s.free := by
  unfold State.putS; split <;> rfl
@[simp] theorem putS_upsets (n : Nat) (v : Dbl) : (s.putS n v).upsets = s.upsets := by
  unfold State.putS; split <;> rfl

/-! ### wrS -/

@[simp] theorem wrS_clusters (n bound : Nat) (v : Dbl) : (s.wrS n bound v).clusters = s.clusters := by
  unfold State.wrS; split <;> rfl
@[simp] theorem wrS_doms (n bound : Nat) (v : Dbl) : (s.wrS n bound v).doms = s.doms := by
  unfold State.wrS; split <;> rfl
@[simp] theorem wrS_dies (n bound : Nat) (v : Dbl) : (s.wrS n bound v).dies = s.dies := by
  unfold State.wrS; split <;> rfl
@[simp] theorem wrS_home (n bound : Nat) (v : Dbl) : (s.wrS n bound v).home = s.home := by
  unfold State.wrS; split <;> rfl
@[simp] theorem wrS_hbm (n bound : Nat) (v : Dbl) : (s.wrS n bound v).hbm = s.hbm := by
  unfold State.wrS; split <;> rfl
@[simp] theorem wrS_sched (n bound : Nat) (v : Dbl) : (s.wrS n bound v).sched = s.sched := by
  unfold State.wrS; split <;> rfl
@[simp] theorem wrS_streams (n bound : Nat) (v : Dbl) : (s.wrS n bound v).streams = s.streams := by
  unfold State.wrS; split <;> rfl
@[simp] theorem wrS_host (n bound : Nat) (v : Dbl) : (s.wrS n bound v).host = s.host := by
  unfold State.wrS; split <;> rfl
@[simp] theorem wrS_err (n bound : Nat) (v : Dbl) : (s.wrS n bound v).err = s.err := by
  unfold State.wrS; split <;> rfl
@[simp] theorem wrS_xlt (n bound : Nat) (v : Dbl) : (s.wrS n bound v).xlt = s.xlt := by
  unfold State.wrS; split <;> rfl
@[simp] theorem wrS_power (n bound : Nat) (v : Dbl) : (s.wrS n bound v).power = s.power := by
  unfold State.wrS; split <;> rfl
@[simp] theorem wrS_now (n bound : Nat) (v : Dbl) : (s.wrS n bound v).now = s.now := by
  unfold State.wrS; split <;> rfl
@[simp] theorem wrS_cur (n bound : Nat) (v : Dbl) : (s.wrS n bound v).cur = s.cur := by
  unfold State.wrS; split <;> rfl
@[simp] theorem wrS_agenda (n bound : Nat) (v : Dbl) : (s.wrS n bound v).agenda = s.agenda := by
  unfold State.wrS; split <;> rfl
@[simp] theorem wrS_free (n bound : Nat) (v : Dbl) : (s.wrS n bound v).free = s.free := by
  unfold State.wrS; split <;> rfl
@[simp] theorem wrS_upsets (n bound : Nat) (v : Dbl) : (s.wrS n bound v).upsets = s.upsets := by
  unfold State.wrS; split <;> rfl

/-! ### Reading back -/

@[simp] theorem length_cores_modCore (k : Nat) (f : Core → Core) : (s.modCore k f).cores.length = s.cores.length := by
  simp [State.modCore]
@[simp] theorem length_clusters_modCluster (n : Nat) (f : Cluster → Cluster) :
    (s.modCluster n f).clusters.length = s.clusters.length := by simp [State.modCluster]
@[simp] theorem length_cores_modStrand (k : Nat) (f : Strand → Strand) :
    (s.modStrand k f).cores.length = s.cores.length := by simp [State.modStrand]
@[simp] theorem length_cores_modSt (f : Strand → Strand) : (s.modSt f).cores.length = s.cores.length := by
  simp [State.modSt]

theorem core_modCore_same (k : Nat) (f : Core → Core) (h : k < s.cores.length) :
    (s.modCore k f).core k = f (s.core k) := lget_lmod_same _ _ _ _ h
theorem core_modCore_ne (k j : Nat) (f : Core → Core) (h : k ≠ j) : (s.modCore k f).core j = s.core j :=
  lget_lmod_ne _ _ _ _ _ h
theorem cluster_modCluster_same (n : Nat) (f : Cluster → Cluster) (h : n < s.clusters.length) :
    (s.modCluster n f).cluster n = f (s.cluster n) := lget_lmod_same _ _ _ _ h
theorem cluster_modCluster_ne (n m : Nat) (f : Cluster → Cluster) (h : n ≠ m) :
    (s.modCluster n f).cluster m = s.cluster m := lget_lmod_ne _ _ _ _ _ h
theorem stack_modStack_same (n : Nat) (f : Stack → Stack) (h : n < s.doms.length) :
    (s.modStack n f).stack n = f (s.stack n) := lget_lmod_same _ _ _ _ h
theorem die_modDie_same (n : Nat) (f : Die → Die) (h : n < s.dies.length) :
    (s.modDie n f).die n = f (s.die n) := lget_lmod_same _ _ _ _ h
theorem ctx_modCtx_same (c : Nat) (f : Ctx → Ctx) (h : c < s.sched.ctxs.length) :
    (s.modCtx c f).ctx c = f (s.ctx c) := lget_lmod_same _ _ _ _ h
theorem ctx_modCtx_ne (c d : Nat) (f : Ctx → Ctx) (h : c ≠ d) : (s.modCtx c f).ctx d = s.ctx d :=
  lget_lmod_ne _ _ _ _ _ h

theorem Core.strand_modStrand (c : Core) (f : Strand → Strand) : (c.modStrand f).strand = f c.strand := by
  unfold Core.modStrand Core.strand
  split <;> simp_all
@[simp] theorem Core.modStrand_inPar (c : Core) (f : Strand → Strand) : (c.modStrand f).inPar = c.inPar := by
  unfold Core.modStrand
  split <;> rfl
@[simp] theorem Core.modStrand_spad (c : Core) (f : Strand → Strand) : (c.modStrand f).spad = c.spad := by
  unfold Core.modStrand
  split <;> rfl
@[simp] theorem Core.modStrand_imem (c : Core) (f : Strand → Strand) : (c.modStrand f).imem = c.imem := by
  unfold Core.modStrand
  split <;> rfl
@[simp] theorem Core.modStrand_l1 (c : Core) (f : Strand → Strand) : (c.modStrand f).l1 = c.l1 := by
  unfold Core.modStrand
  split <;> rfl

theorem strand_modStrand_same (k : Nat) (f : Strand → Strand) (h : k < s.cores.length) :
    (s.modStrand k f).strand k = f (s.strand k) := by
  unfold State.strand State.modStrand
  rw [core_modCore_same s k _ h, Core.strand_modStrand]
theorem strand_modStrand_ne (k j : Nat) (f : Strand → Strand) (h : k ≠ j) :
    (s.modStrand k f).strand j = s.strand j := by
  unfold State.strand State.modStrand
  rw [core_modCore_ne s k j _ h]
theorem st_modSt (f : Strand → Strand) (h : s.cur < s.cores.length) : (s.modSt f).st = f s.st :=
  strand_modStrand_same s s.cur f h
theorem strand_modSt_ne (j : Nat) (f : Strand → Strand) (h : s.cur ≠ j) : (s.modSt f).strand j = s.strand j :=
  strand_modStrand_ne s s.cur j f h

/-- No update of a strand changes a scratchpad. -/
@[simp] theorem spad_modStrand (k j : Nat) (f : Strand → Strand) :
    ((s.modStrand k f).core j).spad = (s.core j).spad := by
  unfold State.modStrand
  by_cases hj : k = j
  · subst hj
    by_cases hk : k < s.cores.length
    · rw [core_modCore_same s k _ hk, Core.modStrand_spad]
    · have e : lmod s.cores k (fun c => c.modStrand f) = s.cores := by
        have aux : ∀ (l : List Core) (i : Nat), l.length ≤ i → lmod l i (fun c => c.modStrand f) = l := by
          intro l
          induction l with
          | nil => intros; rfl
          | cons a l ih => intro i hi; cases i with
            | zero => simp at hi
            | succ i => simp [lmod, ih i (by simpa using hi)]
        exact aux _ _ (by omega)
      simp [State.core, State.modCore, e]
  · rw [core_modCore_ne s k j _ hj]
@[simp] theorem spad_modSt (j : Nat) (f : Strand → Strand) : ((s.modSt f).core j).spad = (s.core j).spad :=
  spad_modStrand s s.cur j f

/-! ### Registers -/

/-- s0 reads 0, whatever has been written (R99). -/
@[simp] theorem rdS_zero : s.rdS 0 = 0#64 := rfl
@[simp] theorem getS_zero : s.getS 0 = 0#64 := rfl
@[simp] theorem putS_zero (v : Dbl) : s.putS 0 v = s := rfl
@[simp] theorem wrS_zero (bound : Nat) (v : Dbl) : s.wrS 0 bound v = s := rfl

theorem getS_putS_same (n : Nat) (v : Dbl) (hc : s.cur < s.cores.length) (h0 : n ≠ 0)
    (h : n < s.st.regs.s.length) : (s.putS n v).getS n = v := by
  unfold State.getS State.putS
  rw [if_neg h0, if_neg h0, st_modSt _ _ hc]
  exact lget_set_same _ _ _ _ h
theorem getS_putS_ne (n m : Nat) (v : Dbl) (hc : s.cur < s.cores.length) (h : n ≠ m) :
    (s.putS n v).getS m = s.getS m := by
  unfold State.putS
  split
  · rfl
  · unfold State.getS
    split
    · rfl
    · rw [st_modSt _ _ hc]
      exact lget_set_ne _ _ _ _ _ h
theorem getS_wrS_same (n bound : Nat) (v : Dbl) (hc : s.cur < s.cores.length) (h0 : n ≠ 0)
    (h : n < s.st.regs.s.length) : (s.wrS n bound v).getS n = v := by
  unfold State.getS State.wrS
  rw [if_neg h0, if_neg h0, st_modSt _ _ hc]
  exact lget_set_same _ _ _ _ h
theorem getS_wrS_ne (n m bound : Nat) (v : Dbl) (hc : s.cur < s.cores.length) (h : n ≠ m) :
    (s.wrS n bound v).getS m = s.getS m := by
  unfold State.wrS
  split
  · rfl
  · unfold State.getS
    split
    · rfl
    · rw [st_modSt _ _ hc]
      exact lget_set_ne _ _ _ _ _ h

end Sys2Proof.Machine
end

