-- ==== Sys2Proof/Laws/Homes.lean ====
section
/-! SUPPORT. What a write at a home leaves of the device: the memory-side cache takes the line (Table 11.1), and nothing else but
HBM and the stacks changes. -/

namespace Sys2Proof.Machine

/-- A state that differs from another in HBM and in its stacks only. -/
def State.sameButHbm (s t : State) : Prop := t = { s with hbm := t.hbm, doms := t.doms }

theorem State.sameButHbm.rfl (s : State) : s.sameButHbm s := by cases s; exact Eq.refl _
theorem State.sameButHbm.trans {s t u : State} (h : s.sameButHbm t) (k : t.sameButHbm u) : s.sameButHbm u := by
  unfold State.sameButHbm at *
  rw [k, h]

/-- What HBM and the stacks do not hold is the same. -/
theorem State.sameButHbm.parts {s t : State} (h : s.sameButHbm t) : t.home = s.home ∧ t.cores = s.cores
    ∧ t.clusters = s.clusters ∧ t.dies = s.dies ∧ t.sched = s.sched ∧ t.host = s.host ∧ t.cur = s.cur ∧ t.now = s.now := by
  unfold State.sameButHbm at h
  rw [h]
  exact ⟨Eq.refl _, Eq.refl _, Eq.refl _, Eq.refl _, Eq.refl _, Eq.refl _, Eq.refl _, Eq.refl _⟩

theorem hbmUsed_same (s : State) (pa : Nat) : s.sameButHbm (s.hbmUsed pa) := Eq.refl _
theorem mscWrite_same (s : State) (p : Nat → Bool) : s.sameButHbm (s.mscWrite p) := Eq.refl _

/-- The memory-side cache takes a line: what it holds, and what it writes back for that, is in HBM and the stacks. -/
theorem mscHold_same (s : State) (pa : Nat) : s.sameButHbm (s.mscHold pa) := by
  unfold State.mscHold
  dsimp only
  split
  · exact State.sameButHbm.rfl s
  · split
    · exact Eq.refl _
    · exact State.sameButHbm.trans (mscWrite_same s _) (Eq.refl _)

theorem homeTake_same (s : State) (pa n : Nat) : s.sameButHbm (s.homeTake pa n) := by
  unfold State.homeTake
  refine List.foldlRecOn (motive := fun t => s.sameButHbm t) _ _ (hbmUsed_same s pa) ?_
  intro t h i _
  exact h.trans (mscHold_same t _)

/-- HBM keeps its canonical form. -/
theorem wf_mscWrite {s : State} (h : Memory.wf s.hbm = true) (p : Nat → Bool) : Memory.wf (s.mscWrite p).hbm = true :=
  Memory.wf_foldl_mset (Memory.wf_filter h _) _

theorem wf_mscHold {s : State} (h : Memory.wf s.hbm = true) (pa : Nat) : Memory.wf (s.mscHold pa).hbm = true := by
  unfold State.mscHold
  dsimp only
  split
  · exact h
  · split
    · exact h
    · rename_i v _ _
      exact wf_mscWrite h (· == 128 * v)

theorem wf_homeTake {s : State} (h : Memory.wf s.hbm = true) (pa n : Nat) : Memory.wf (s.homeTake pa n).hbm = true := by
  unfold State.homeTake
  refine List.foldlRecOn (motive := fun t : State => Memory.wf t.hbm = true) _ _ h ?_
  intro t ht i _
  exact wf_mscHold ht _

/-- Bytes written at the home: they are there, every other byte of the homes stays, and the form is kept. -/
theorem homePuts_home (s : State) (pa : Nat) (l : List Byte) : (s.homePuts pa l).home = mputs s.home pa l := by
  show mputs (s.homeTake pa l.length).home pa l = _
  rw [(homeTake_same s pa l.length).parts.1]

theorem mget_homePuts_in (s : State) (pa : Nat) (l : List Byte) (i : Nat) (h : i < l.length) :
    mget (s.homePuts pa l).home (pa + i) = l.getD i 0#8 := by rw [homePuts_home, mget_mputs_in _ _ _ _ h]

theorem mget_homePuts_out (s : State) (pa : Nat) (l : List Byte) (x : Nat) (h : x < pa ∨ pa + l.length ≤ x) :
    mget (s.homePuts pa l).home x = mget s.home x := by rw [homePuts_home, mget_mputs_out _ _ _ _ h]

theorem wf_homePuts {s : State} (h : Memory.wf s.home = true) (pa : Nat) (l : List Byte) :
    Memory.wf (s.homePuts pa l).home = true := by rw [homePuts_home]; exact Memory.wf_mputs h pa l

theorem homePuts_cores (s : State) (pa : Nat) (l : List Byte) : (s.homePuts pa l).cores = s.cores :=
  (homeTake_same s pa l.length).parts.2.1
theorem homePuts_clusters (s : State) (pa : Nat) (l : List Byte) : (s.homePuts pa l).clusters = s.clusters :=
  (homeTake_same s pa l.length).parts.2.2.1

end Sys2Proof.Machine
end

