-- ==== Sys2Proof/Laws/PerInstr.lean ====
section
/-! SUPPORT. The family EncodeTag, per instruction: the encoding of a well-formed word is a word, and bits 31:30 of it are the
tag of its engine (R50, R51). -/

set_option Elab.async false
set_option linter.unusedSimpArgs false

namespace Sys2Proof

theorem AluFn.code_lt (x : AluFn) : x.code < 17 := by cases x <;> decide
theorem MulFn.code_lt (x : MulFn) : x.code < 8 := by cases x <;> decide
theorem Size.code_lt (x : Size) : x.code < 4 := by cases x <;> decide
theorem WSize.code_lt (x : WSize) : x.code < 2 := by cases x <;> decide
theorem Scope.code_lt (x : Scope) : x.code < 8 := by cases x <;> decide
theorem FenceKind.code_lt (x : FenceKind) : x.code < 4 := by cases x <;> decide
theorem CmOp.code_lt (x : CmOp) : x.code < 3 := by cases x <;> decide
theorem CmLevel.code_lt (x : CmLevel) : x.code < 3 := by cases x <;> decide
theorem AmoFn.code_lt (x : AmoFn) : x.code < 16 := by cases x <;> decide
theorem VTy.code_lt (x : VTy) : x.code < 8 := by cases x <;> decide
theorem VUnFn.code_lt (x : VUnFn) : x.code < 8 := by cases x <;> decide
theorem VLogFn.code_lt (x : VLogFn) : x.code < 8 := by cases x <;> decide
theorem VShFn.code_lt (x : VShFn) : x.code < 4 := by cases x <;> decide
theorem VRel.code_lt (x : VRel) : x.code < 8 := by cases x <;> decide
theorem VRedFn.code_lt (x : VRedFn) : x.code < 8 := by cases x <;> decide
theorem VAmoFn.code_lt (x : VAmoFn) : x.code < 8 := by cases x <;> decide
theorem LaneW.code_lt (x : LaneW) : x.code < 3 := by cases x <;> decide
theorem Rnd.code_lt (x : Rnd) : x.code < 4 := by cases x <;> decide
theorem Dir.code_lt (x : Dir) : x.code < 4 := by cases x <;> decide
theorem TileTy.code_lt (x : TileTy) : x.code < 9 := by cases x <;> decide
theorem TClass.code_lt (x : TClass) : x.code < 3 := by cases x <;> decide
theorem EvMode.code_lt (x : EvMode) : x.code < 2 := by cases x <;> decide
theorem Rel.code_lt (x : Rel) : x.code < 6 := by cases x <;> decide
theorem cvCode_lt (x : Option VTy) : cvCode x < 16 := by
  cases x with
  | none => decide
  | some t => have := t.code_lt; simp only [cvCode]; omega
theorem Guard.code_lt {x : Guard} (h : x.ok = true) : x.code < 16 := by
  cases x with
  | always => decide
  | cond c g => simp only [Guard.ok, Bool.and_eq_true, decide_eq_true_eq] at h; simp only [Guard.code]; omega
theorem VSrc.code_lt {x : VSrc} (h : x.ok = true) : x.code < 38 := by
  cases x with
  | reg n => simp only [VSrc.ok, decide_eq_true_eq] at h; simp only [VSrc.code]; omega
  | port n => simp only [VSrc.ok, decide_eq_true_eq] at h; simp only [VSrc.code]; omega
  | q => decide
  | zero => decide
theorem VDst.code_lt {x : VDst} (h : x.ok = true) : x.code < 36 := by
  cases x with
  | reg n => simp only [VDst.ok, decide_eq_true_eq] at h; simp only [VDst.code]; omega
  | port n => simp only [VDst.ok, decide_eq_true_eq] at h; simp only [VDst.code]; omega
theorem EvSel.code_lt {x : EvSel} (h : x.ok = true) : x.code < 2048 := by
  cases x with
  | one e => simp only [EvSel.ok, decide_eq_true_eq] at h; simp only [EvSel.code]; omega
  | mask a => simp only [EvSel.ok, decide_eq_true_eq] at h; simp only [EvSel.code]; omega

namespace Laws.EncodeTag

open Sys2Proof.Machine

/-- The encoding of a well-formed word fits 32 bits and carries the tag of its engine. -/
def Statement (i : Instr) : Prop :=
  ∀ e, i.engine = some e → i.wellFormed = true → encode i < 2 ^ 32 ∧ tagOf (encode i) = engNo e

theorem nop : Statement .nop := by
  intro e he _
  obtain rfl : _ = e := Option.some.inj he
  decide
theorem alu (f : AluFn) (d : Nat) (a : Nat) (b : Nat) (g : Guard) : Statement (.alu f d a b g) := by
  intro e he hw
  obtain rfl : _ = e := Option.some.inj he
  simp only [Instr.wellFormed, Bool.and_eq_true, decide_eq_true_eq] at hw
  have hf := f.code_lt
  have hg : g.code < 16 := Guard.code_lt (by simp_all)
  simp only [encode, tagOf, engNo]
  omega
theorem muldiv (f : MulFn) (d : Nat) (a : Nat) (b : Nat) (g : Guard) : Statement (.muldiv f d a b g) := by
  intro e he hw
  obtain rfl : _ = e := Option.some.inj he
  simp only [Instr.wellFormed, Bool.and_eq_true, decide_eq_true_eq] at hw
  have hf := f.code_lt
  have hg : g.code < 16 := Guard.code_lt (by simp_all)
  simp only [encode, tagOf, engNo]
  omega
theorem addi (d : Nat) (a : Nat) (imm : Nat) : Statement (.addi d a imm) := by
  intro e he hw
  obtain rfl : _ = e := Option.some.inj he
  simp only [Instr.wellFormed, Bool.and_eq_true, decide_eq_true_eq] at hw
  simp only [encode, tagOf, engNo]
  omega
theorem andi (d : Nat) (a : Nat) (imm : Nat) : Statement (.andi d a imm) := by
  intro e he hw
  obtain rfl : _ = e := Option.some.inj he
  simp only [Instr.wellFormed, Bool.and_eq_true, decide_eq_true_eq] at hw
  simp only [encode, tagOf, engNo]
  omega
theorem ori (d : Nat) (a : Nat) (imm : Nat) : Statement (.ori d a imm) := by
  intro e he hw
  obtain rfl : _ = e := Option.some.inj he
  simp only [Instr.wellFormed, Bool.and_eq_true, decide_eq_true_eq] at hw
  simp only [encode, tagOf, engNo]
  omega
theorem xori (d : Nat) (a : Nat) (imm : Nat) : Statement (.xori d a imm) := by
  intro e he hw
  obtain rfl : _ = e := Option.some.inj he
  simp only [Instr.wellFormed, Bool.and_eq_true, decide_eq_true_eq] at hw
  simp only [encode, tagOf, engNo]
  omega
theorem shli (d : Nat) (a : Nat) (cnt : Nat) : Statement (.shli d a cnt) := by
  intro e he hw
  obtain rfl : _ = e := Option.some.inj he
  simp only [Instr.wellFormed, Bool.and_eq_true, decide_eq_true_eq] at hw
  simp only [encode, tagOf, engNo]
  omega
theorem shri (d : Nat) (a : Nat) (cnt : Nat) : Statement (.shri d a cnt) := by
  intro e he hw
  obtain rfl : _ = e := Option.some.inj he
  simp only [Instr.wellFormed, Bool.and_eq_true, decide_eq_true_eq] at hw
  simp only [encode, tagOf, engNo]
  omega
theorem srai (d : Nat) (a : Nat) (cnt : Nat) : Statement (.srai d a cnt) := by
  intro e he hw
  obtain rfl : _ = e := Option.some.inj he
  simp only [Instr.wellFormed, Bool.and_eq_true, decide_eq_true_eq] at hw
  simp only [encode, tagOf, engNo]
  omega
theorem lui (d : Nat) (imm : Nat) : Statement (.lui d imm) := by
  intro e he hw
  obtain rfl : _ = e := Option.some.inj he
  simp only [Instr.wellFormed, Bool.and_eq_true, decide_eq_true_eq] at hw
  simp only [encode, tagOf, engNo]
  omega
theorem luh (d : Nat) (imm : Nat) : Statement (.luh d imm) := by
  intro e he hw
  obtain rfl : _ = e := Option.some.inj he
  simp only [Instr.wellFormed, Bool.and_eq_true, decide_eq_true_eq] at hw
  simp only [encode, tagOf, engNo]
  omega
theorem cmp (r : Rel) (c : Nat) (a : Nat) (b : Nat) (g : Guard) : Statement (.cmp r c a b g) := by
  intro e he hw
  obtain rfl : _ = e := Option.some.inj he
  simp only [Instr.wellFormed, Bool.and_eq_true, decide_eq_true_eq] at hw
  have hr := r.code_lt
  have hg : g.code < 16 := Guard.code_lt (by simp_all)
  simp only [encode, tagOf, engNo]
  omega
theorem cmpi (r : Rel) (c : Nat) (a : Nat) (imm : Nat) : Statement (.cmpi r c a imm) := by
  intro e he hw
  obtain rfl : _ = e := Option.some.inj he
  simp only [Instr.wellFormed, Bool.and_eq_true, decide_eq_true_eq] at hw
  have hr := r.code_lt
  simp only [encode, tagOf, engNo]
  omega
theorem lea (d : Nat) (a : Nat) (b : Nat) (sh : Nat) (g : Guard) : Statement (.lea d a b sh g) := by
  intro e he hw
  obtain rfl : _ = e := Option.some.inj he
  simp only [Instr.wellFormed, Bool.and_eq_true, decide_eq_true_eq] at hw
  have hg : g.code < 16 := Guard.code_lt (by simp_all)
  simp only [encode, tagOf, engNo]
  omega
theorem ctos (d : Nat) (g : Guard) : Statement (.ctos d g) := by
  intro e he hw
  obtain rfl : _ = e := Option.some.inj he
  simp only [Instr.wellFormed, Bool.and_eq_true, decide_eq_true_eq] at hw
  have hg : g.code < 16 := Guard.code_lt (by simp_all)
  simp only [encode, tagOf, engNo]
  omega
theorem stoc (a : Nat) (g : Guard) : Statement (.stoc a g) := by
  intro e he hw
  obtain rfl : _ = e := Option.some.inj he
  simp only [Instr.wellFormed, Bool.and_eq_true, decide_eq_true_eq] at hw
  have hg : g.code < 16 := Guard.code_lt (by simp_all)
  simp only [encode, tagOf, engNo]
  omega
theorem ld (d : Nat) (a : Nat) (oc : Nat) (sz : Size) (off : Nat) : Statement (.ld d a oc sz off) := by
  intro e he hw
  obtain rfl : _ = e := Option.some.inj he
  simp only [Instr.wellFormed, Bool.and_eq_true, decide_eq_true_eq] at hw
  have hsz := sz.code_lt
  simp only [encode, tagOf, engNo]
  omega
theorem lds (d : Nat) (a : Nat) (oc : Nat) (sz : Size) (off : Nat) : Statement (.lds d a oc sz off) := by
  intro e he hw
  obtain rfl : _ = e := Option.some.inj he
  simp only [Instr.wellFormed, Bool.and_eq_true, decide_eq_true_eq] at hw
  have hsz := sz.code_lt
  simp only [encode, tagOf, engNo]
  omega
theorem st (d : Nat) (a : Nat) (oc : Nat) (sz : Size) (off : Nat) : Statement (.st d a oc sz off) := by
  intro e he hw
  obtain rfl : _ = e := Option.some.inj he
  simp only [Instr.wellFormed, Bool.and_eq_true, decide_eq_true_eq] at hw
  have hsz := sz.code_lt
  simp only [encode, tagOf, engNo]
  omega
theorem lda (d : Nat) (a : Nat) (oc : Nat) (sc : Scope) (sz : WSize) (off : Nat) : Statement (.lda d a oc sc sz off) := by
  intro e he hw
  obtain rfl : _ = e := Option.some.inj he
  simp only [Instr.wellFormed, Bool.and_eq_true, decide_eq_true_eq] at hw
  have hsc := sc.code_lt
  have hsz := sz.code_lt
  simp only [encode, tagOf, engNo]
  omega
theorem stl (d : Nat) (a : Nat) (oc : Nat) (sc : Scope) (sz : WSize) (off : Nat) : Statement (.stl d a oc sc sz off) := by
  intro e he hw
  obtain rfl : _ = e := Option.some.inj he
  simp only [Instr.wellFormed, Bool.and_eq_true, decide_eq_true_eq] at hw
  have hsc := sc.code_lt
  have hsz := sz.code_lt
  simp only [encode, tagOf, engNo]
  omega
theorem amo (f : AmoFn) (d : Nat) (a : Nat) (b : Nat) (sc : Scope) (sz : WSize) : Statement (.amo f d a b sc sz) := by
  intro e he hw
  obtain rfl : _ = e := Option.some.inj he
  simp only [Instr.wellFormed, Bool.and_eq_true, decide_eq_true_eq] at hw
  have hf := f.code_lt
  have hsc := sc.code_lt
  have hsz := sz.code_lt
  simp only [encode, tagOf, engNo]
  omega
theorem cas (d : Nat) (a : Nat) (b : Nat) (sc : Scope) (sz : WSize) : Statement (.cas d a b sc sz) := by
  intro e he hw
  obtain rfl : _ = e := Option.some.inj he
  simp only [Instr.wellFormed, Bool.and_eq_true, decide_eq_true_eq] at hw
  have hsc := sc.code_lt
  have hsz := sz.code_lt
  simp only [encode, tagOf, engNo]
  omega
theorem fence (k : FenceKind) (sc : Scope) (cm : Nat) : Statement (.fence k sc cm) := by
  intro e he hw
  obtain rfl : _ = e := Option.some.inj he
  simp only [Instr.wellFormed, Bool.and_eq_true, decide_eq_true_eq] at hw
  have hk := k.code_lt
  have hsc := sc.code_lt
  simp only [encode, tagOf, engNo]
  omega
theorem cmaint (op : CmOp) (lv : CmLevel) (a : Nat) (b : Nat) (g : Guard) : Statement (.cmaint op lv a b g) := by
  intro e he hw
  obtain rfl : _ = e := Option.some.inj he
  simp only [Instr.wellFormed, Bool.and_eq_true, decide_eq_true_eq] at hw
  have hop := op.code_lt
  have hlv := lv.code_lt
  have hg : g.code < 16 := Guard.code_lt (by simp_all)
  simp only [encode, tagOf, engNo]
  omega
theorem waita (r : Rel) (sz : WSize) (d : Nat) (a : Nat) (b : Nat) (g : Guard) : Statement (.waita r sz d a b g) := by
  intro e he hw
  obtain rfl : _ = e := Option.some.inj he
  simp only [Instr.wellFormed, Bool.and_eq_true, decide_eq_true_eq] at hw
  have hr := r.code_lt
  have hsz := sz.code_lt
  have hg : g.code < 16 := Guard.code_lt (by simp_all)
  simp only [encode, tagOf, engNo]
  omega
theorem barArrive (d : Nat) (a : Nat) (g : Guard) : Statement (.barArrive d a g) := by
  intro e he hw
  obtain rfl : _ = e := Option.some.inj he
  simp only [Instr.wellFormed, Bool.and_eq_true, decide_eq_true_eq] at hw
  have hg : g.code < 16 := Guard.code_lt (by simp_all)
  simp only [encode, tagOf, engNo]
  omega
theorem barExpect (a : Nat) (b : Nat) (g : Guard) : Statement (.barExpect a b g) := by
  intro e he hw
  obtain rfl : _ = e := Option.some.inj he
  simp only [Instr.wellFormed, Bool.and_eq_true, decide_eq_true_eq] at hw
  have hg : g.code < 16 := Guard.code_lt (by simp_all)
  simp only [encode, tagOf, engNo]
  omega
theorem barWait (a : Nat) (b : Nat) (g : Guard) : Statement (.barWait a b g) := by
  intro e he hw
  obtain rfl : _ = e := Option.some.inj he
  simp only [Instr.wellFormed, Bool.and_eq_true, decide_eq_true_eq] at hw
  have hg : g.code < 16 := Guard.code_lt (by simp_all)
  simp only [encode, tagOf, engNo]
  omega
theorem barArriveExpect (d : Nat) (a : Nat) (b : Nat) (g : Guard) : Statement (.barArriveExpect d a b g) := by
  intro e he hw
  obtain rfl : _ = e := Option.some.inj he
  simp only [Instr.wellFormed, Bool.and_eq_true, decide_eq_true_eq] at hw
  have hg : g.code < 16 := Guard.code_lt (by simp_all)
  simp only [encode, tagOf, engNo]
  omega
theorem fput (a : Nat) (b : Nat) (g : Guard) : Statement (.fput a b g) := by
  intro e he hw
  obtain rfl : _ = e := Option.some.inj he
  simp only [Instr.wellFormed, Bool.and_eq_true, decide_eq_true_eq] at hw
  have hg : g.code < 16 := Guard.code_lt (by simp_all)
  simp only [encode, tagOf, engNo]
  omega
theorem fget (d : Nat) (a : Nat) (g : Guard) : Statement (.fget d a g) := by
  intro e he hw
  obtain rfl : _ = e := Option.some.inj he
  simp only [Instr.wellFormed, Bool.and_eq_true, decide_eq_true_eq] at hw
  have hg : g.code < 16 := Guard.code_lt (by simp_all)
  simp only [encode, tagOf, engNo]
  omega
theorem fpeek (d : Nat) (a : Nat) (g : Guard) : Statement (.fpeek d a g) := by
  intro e he hw
  obtain rfl : _ = e := Option.some.inj he
  simp only [Instr.wellFormed, Bool.and_eq_true, decide_eq_true_eq] at hw
  have hg : g.code < 16 := Guard.code_lt (by simp_all)
  simp only [encode, tagOf, engNo]
  omega
theorem ptg (bt : Nat) (imm : Nat) : Statement (.ptg bt imm) := by
  intro e he hw
  obtain rfl : _ = e := Option.some.inj he
  simp only [Instr.wellFormed, Bool.and_eq_true, decide_eq_true_eq] at hw
  simp only [encode, tagOf, engNo]
  omega
theorem xfer (bt : Nat) (l : Nat) (u : Nat) (ci : Nat) (cs : Nat) (bm : Nat) : Statement (.xfer bt l u ci cs bm) := by
  intro e he hw
  obtain rfl : _ = e := Option.some.inj he
  simp only [Instr.wellFormed, Bool.and_eq_true, decide_eq_true_eq] at hw
  simp only [encode, tagOf, engNo]
  omega
theorem trap (d : Nat) (code : Nat) : Statement (.trap d code) := by
  intro e he hw
  obtain rfl : _ = e := Option.some.inj he
  simp only [Instr.wellFormed, Bool.and_eq_true, decide_eq_true_eq] at hw
  simp only [encode, tagOf, engNo]
  omega
theorem halt : Statement .halt := by
  intro e he _
  obtain rfl : _ = e := Option.some.inj he
  decide
theorem wait (m : Nat) : Statement (.wait m) := by
  intro e he hw
  obtain rfl : _ = e := Option.some.inj he
  simp only [Instr.wellFormed, Bool.and_eq_true, decide_eq_true_eq] at hw
  simp only [encode, tagOf, engNo]
  omega
theorem evwait (e : EvSel) (mode : EvMode) : Statement (.evwait e mode) := by
  intro e he hw
  obtain rfl : _ = e := Option.some.inj he
  simp only [Instr.wellFormed, Bool.and_eq_true, decide_eq_true_eq] at hw
  have he : e.code < 2048 := EvSel.code_lt (by simp_all)
  have hmode := mode.code_lt
  simp only [encode, tagOf, engNo]
  omega
theorem evsig (e : EvSel) : Statement (.evsig e) := by
  intro e he hw
  obtain rfl : _ = e := Option.some.inj he
  simp only [Instr.wellFormed, Bool.and_eq_true, decide_eq_true_eq] at hw
  have he : e.code < 2048 := EvSel.code_lt (by simp_all)
  simp only [encode, tagOf, engNo]
  omega
theorem evclr (e : EvSel) : Statement (.evclr e) := by
  intro e he hw
  obtain rfl : _ = e := Option.some.inj he
  simp only [Instr.wellFormed, Bool.and_eq_true, decide_eq_true_eq] at hw
  have he : e.code < 2048 := EvSel.code_lt (by simp_all)
  simp only [encode, tagOf, engNo]
  omega
theorem qpush (sel : Nat) (a : Nat) : Statement (.qpush sel a) := by
  intro e he hw
  obtain rfl : _ = e := Option.some.inj he
  simp only [Instr.wellFormed, Bool.and_eq_true, decide_eq_true_eq] at hw
  simp only [encode, tagOf, engNo]
  omega
theorem qpop (sel : Nat) (d : Nat) : Statement (.qpop sel d) := by
  intro e he hw
  obtain rfl : _ = e := Option.some.inj he
  simp only [Instr.wellFormed, Bool.and_eq_true, decide_eq_true_eq] at hw
  simp only [encode, tagOf, engNo]
  omega
theorem fpush (a : Nat) : Statement (.fpush a) := by
  intro e he hw
  obtain rfl : _ = e := Option.some.inj he
  simp only [Instr.wellFormed, Bool.and_eq_true, decide_eq_true_eq] at hw
  simp only [encode, tagOf, engNo]
  omega
theorem pset (p : Nat) (a : Nat) : Statement (.pset p a) := by
  intro e he hw
  obtain rfl : _ = e := Option.some.inj he
  simp only [Instr.wellFormed, Bool.and_eq_true, decide_eq_true_eq] at hw
  simp only [encode, tagOf, engNo]
  omega
theorem qmark (m : Nat) : Statement (.qmark m) := by
  intro e he hw
  obtain rfl : _ = e := Option.some.inj he
  simp only [Instr.wellFormed, Bool.and_eq_true, decide_eq_true_eq] at hw
  simp only [encode, tagOf, engNo]
  omega
theorem sqdrain (sel : Nat) : Statement (.sqdrain sel) := by
  intro e he hw
  obtain rfl : _ = e := Option.some.inj he
  simp only [Instr.wellFormed, Bool.and_eq_true, decide_eq_true_eq] at hw
  simp only [encode, tagOf, engNo]
  omega
theorem talloc (k : TClass) (d : Nat) (a : Nat) (b : Nat) (g : Guard) : Statement (.talloc k d a b g) := by
  intro e he hw
  obtain rfl : _ = e := Option.some.inj he
  simp only [Instr.wellFormed, Bool.and_eq_true, decide_eq_true_eq] at hw
  have hk := k.code_lt
  have hg : g.code < 16 := Guard.code_lt (by simp_all)
  simp only [encode, tagOf, engNo]
  omega
theorem tseal (a : Nat) (g : Guard) : Statement (.tseal a g) := by
  intro e he hw
  obtain rfl : _ = e := Option.some.inj he
  simp only [Instr.wellFormed, Bool.and_eq_true, decide_eq_true_eq] at hw
  have hg : g.code < 16 := Guard.code_lt (by simp_all)
  simp only [encode, tagOf, engNo]
  omega
theorem tread (d : Nat) (a : Nat) (g : Guard) : Statement (.tread d a g) := by
  intro e he hw
  obtain rfl : _ = e := Option.some.inj he
  simp only [Instr.wellFormed, Bool.and_eq_true, decide_eq_true_eq] at hw
  have hg : g.code < 16 := Guard.code_lt (by simp_all)
  simp only [encode, tagOf, engNo]
  omega
theorem tret (a : Nat) (g : Guard) : Statement (.tret a g) := by
  intro e he hw
  obtain rfl : _ = e := Option.some.inj he
  simp only [Instr.wellFormed, Bool.and_eq_true, decide_eq_true_eq] at hw
  have hg : g.code < 16 := Guard.code_lt (by simp_all)
  simp only [encode, tagOf, engNo]
  omega
theorem spawn (a : Nat) (g : Guard) : Statement (.spawn a g) := by
  intro e he hw
  obtain rfl : _ = e := Option.some.inj he
  simp only [Instr.wellFormed, Bool.and_eq_true, decide_eq_true_eq] at hw
  have hg : g.code < 16 := Guard.code_lt (by simp_all)
  simp only [encode, tagOf, engNo]
  omega
theorem join (d : Nat) (a : Nat) (g : Guard) : Statement (.join d a g) := by
  intro e he hw
  obtain rfl : _ = e := Option.some.inj he
  simp only [Instr.wellFormed, Bool.and_eq_true, decide_eq_true_eq] at hw
  have hg : g.code < 16 := Guard.code_lt (by simp_all)
  simp only [encode, tagOf, engNo]
  omega
theorem commit : Statement .commit := by
  intro e he _
  obtain rfl : _ = e := Option.some.inj he
  decide
theorem yield : Statement .yield := by
  intro e he _
  obtain rfl : _ = e := Option.some.inj he
  decide
theorem sysrd (d : Nat) (idx : Nat) : Statement (.sysrd d idx) := by
  intro e he hw
  obtain rfl : _ = e := Option.some.inj he
  simp only [Instr.wellFormed, Bool.and_eq_true, decide_eq_true_eq] at hw
  simp only [encode, tagOf, engNo]
  omega
theorem syswr (a : Nat) (idx : Nat) : Statement (.syswr a idx) := by
  intro e he hw
  obtain rfl : _ = e := Option.some.inj he
  simp only [Instr.wellFormed, Bool.and_eq_true, decide_eq_true_eq] at hw
  simp only [encode, tagOf, engNo]
  omega
theorem psnap (d : Nat) (a : Nat) (g : Guard) : Statement (.psnap d a g) := by
  intro e he hw
  obtain rfl : _ = e := Option.some.inj he
  simp only [Instr.wellFormed, Bool.and_eq_true, decide_eq_true_eq] at hw
  have hg : g.code < 16 := Guard.code_lt (by simp_all)
  simp only [encode, tagOf, engNo]
  omega
theorem prel (a : Nat) (g : Guard) : Statement (.prel a g) := by
  intro e he hw
  obtain rfl : _ = e := Option.some.inj he
  simp only [Instr.wellFormed, Bool.and_eq_true, decide_eq_true_eq] at hw
  have hg : g.code < 16 := Guard.code_lt (by simp_all)
  simp only [encode, tagOf, engNo]
  omega
theorem vnop : Statement .vnop := by
  intro e he _
  obtain rfl : _ = e := Option.some.inj he
  decide
theorem vadd (d : VDst) (a : VSrc) (b : VSrc) (ty : VTy) (s : Nat) (u : Nat) : Statement (.vadd d a b ty s u) := by
  intro e he hw
  obtain rfl : _ = e := Option.some.inj he
  simp only [Instr.wellFormed, Bool.and_eq_true, decide_eq_true_eq] at hw
  have hd : d.code < 36 := VDst.code_lt (by simp_all)
  have ha : a.code < 38 := VSrc.code_lt (by simp_all)
  have hb : b.code < 38 := VSrc.code_lt (by simp_all)
  have hty := ty.code_lt
  simp only [encode, tagOf, engNo]
  omega
theorem vsub (d : VDst) (a : VSrc) (b : VSrc) (ty : VTy) (s : Nat) (u : Nat) : Statement (.vsub d a b ty s u) := by
  intro e he hw
  obtain rfl : _ = e := Option.some.inj he
  simp only [Instr.wellFormed, Bool.and_eq_true, decide_eq_true_eq] at hw
  have hd : d.code < 36 := VDst.code_lt (by simp_all)
  have ha : a.code < 38 := VSrc.code_lt (by simp_all)
  have hb : b.code < 38 := VSrc.code_lt (by simp_all)
  have hty := ty.code_lt
  simp only [encode, tagOf, engNo]
  omega
theorem vmul (d : VDst) (a : VSrc) (b : VSrc) (ty : VTy) (s : Nat) (u : Nat) : Statement (.vmul d a b ty s u) := by
  intro e he hw
  obtain rfl : _ = e := Option.some.inj he
  simp only [Instr.wellFormed, Bool.and_eq_true, decide_eq_true_eq] at hw
  have hd : d.code < 36 := VDst.code_lt (by simp_all)
  have ha : a.code < 38 := VSrc.code_lt (by simp_all)
  have hb : b.code < 38 := VSrc.code_lt (by simp_all)
  have hty := ty.code_lt
  simp only [encode, tagOf, engNo]
  omega
theorem vfma (d : VDst) (a : VSrc) (b : VSrc) (ty : VTy) (s : Nat) (u : Nat) : Statement (.vfma d a b ty s u) := by
  intro e he hw
  obtain rfl : _ = e := Option.some.inj he
  simp only [Instr.wellFormed, Bool.and_eq_true, decide_eq_true_eq] at hw
  have hd : d.code < 36 := VDst.code_lt (by simp_all)
  have ha : a.code < 38 := VSrc.code_lt (by simp_all)
  have hb : b.code < 38 := VSrc.code_lt (by simp_all)
  have hty := ty.code_lt
  simp only [encode, tagOf, engNo]
  omega
theorem vfnma (d : VDst) (a : VSrc) (b : VSrc) (ty : VTy) (s : Nat) (u : Nat) : Statement (.vfnma d a b ty s u) := by
  intro e he hw
  obtain rfl : _ = e := Option.some.inj he
  simp only [Instr.wellFormed, Bool.and_eq_true, decide_eq_true_eq] at hw
  have hd : d.code < 36 := VDst.code_lt (by simp_all)
  have ha : a.code < 38 := VSrc.code_lt (by simp_all)
  have hb : b.code < 38 := VSrc.code_lt (by simp_all)
  have hty := ty.code_lt
  simp only [encode, tagOf, engNo]
  omega
theorem vmin (d : VDst) (a : VSrc) (b : VSrc) (ty : VTy) (u : Nat) : Statement (.vmin d a b ty u) := by
  intro e he hw
  obtain rfl : _ = e := Option.some.inj he
  simp only [Instr.wellFormed, Bool.and_eq_true, decide_eq_true_eq] at hw
  have hd : d.code < 36 := VDst.code_lt (by simp_all)
  have ha : a.code < 38 := VSrc.code_lt (by simp_all)
  have hb : b.code < 38 := VSrc.code_lt (by simp_all)
  have hty := ty.code_lt
  simp only [encode, tagOf, engNo]
  omega
theorem vmax (d : VDst) (a : VSrc) (b : VSrc) (ty : VTy) (u : Nat) : Statement (.vmax d a b ty u) := by
  intro e he hw
  obtain rfl : _ = e := Option.some.inj he
  simp only [Instr.wellFormed, Bool.and_eq_true, decide_eq_true_eq] at hw
  have hd : d.code < 36 := VDst.code_lt (by simp_all)
  have ha : a.code < 38 := VSrc.code_lt (by simp_all)
  have hb : b.code < 38 := VSrc.code_lt (by simp_all)
  have hty := ty.code_lt
  simp only [encode, tagOf, engNo]
  omega
theorem vun (f : VUnFn) (d : VDst) (a : VSrc) (ty : VTy) : Statement (.vun f d a ty) := by
  intro e he hw
  obtain rfl : _ = e := Option.some.inj he
  simp only [Instr.wellFormed, Bool.and_eq_true, decide_eq_true_eq] at hw
  have hf := f.code_lt
  have hd : d.code < 36 := VDst.code_lt (by simp_all)
  have ha : a.code < 38 := VSrc.code_lt (by simp_all)
  have hty := ty.code_lt
  simp only [encode, tagOf, engNo]
  omega
theorem vlog (f : VLogFn) (d : VDst) (a : VSrc) (b : VSrc) (ty : VTy) : Statement (.vlog f d a b ty) := by
  intro e he hw
  obtain rfl : _ = e := Option.some.inj he
  simp only [Instr.wellFormed, Bool.and_eq_true, decide_eq_true_eq] at hw
  have hf := f.code_lt
  have hd : d.code < 36 := VDst.code_lt (by simp_all)
  have ha : a.code < 38 := VSrc.code_lt (by simp_all)
  have hb : b.code < 38 := VSrc.code_lt (by simp_all)
  have hty := ty.code_lt
  simp only [encode, tagOf, engNo]
  omega
theorem vsh (f : VShFn) (d : VDst) (a : VSrc) (b : VSrc) (ty : VTy) : Statement (.vsh f d a b ty) := by
  intro e he hw
  obtain rfl : _ = e := Option.some.inj he
  simp only [Instr.wellFormed, Bool.and_eq_true, decide_eq_true_eq] at hw
  have hf := f.code_lt
  have hd : d.code < 36 := VDst.code_lt (by simp_all)
  have ha : a.code < 38 := VSrc.code_lt (by simp_all)
  have hb : b.code < 38 := VSrc.code_lt (by simp_all)
  have hty := ty.code_lt
  simp only [encode, tagOf, engNo]
  omega
theorem vaddi (d : VDst) (a : VSrc) (imm : Nat) : Statement (.vaddi d a imm) := by
  intro e he hw
  obtain rfl : _ = e := Option.some.inj he
  simp only [Instr.wellFormed, Bool.and_eq_true, decide_eq_true_eq] at hw
  have hd : d.code < 36 := VDst.code_lt (by simp_all)
  have ha : a.code < 38 := VSrc.code_lt (by simp_all)
  simp only [encode, tagOf, engNo]
  omega
theorem vmulw (d : VDst) (a : VSrc) (b : VSrc) (ty : VTy) (u : Nat) : Statement (.vmulw d a b ty u) := by
  intro e he hw
  obtain rfl : _ = e := Option.some.inj he
  simp only [Instr.wellFormed, Bool.and_eq_true, decide_eq_true_eq] at hw
  have hd : d.code < 36 := VDst.code_lt (by simp_all)
  have ha : a.code < 38 := VSrc.code_lt (by simp_all)
  have hb : b.code < 38 := VSrc.code_lt (by simp_all)
  have hty := ty.code_lt
  simp only [encode, tagOf, engNo]
  omega
theorem vaddw (d : VDst) (a : VSrc) (b : VSrc) (ty : VTy) (s : Nat) (u : Nat) : Statement (.vaddw d a b ty s u) := by
  intro e he hw
  obtain rfl : _ = e := Option.some.inj he
  simp only [Instr.wellFormed, Bool.and_eq_true, decide_eq_true_eq] at hw
  have hd : d.code < 36 := VDst.code_lt (by simp_all)
  have ha : a.code < 38 := VSrc.code_lt (by simp_all)
  have hb : b.code < 38 := VSrc.code_lt (by simp_all)
  have hty := ty.code_lt
  simp only [encode, tagOf, engNo]
  omega
theorem vnarr (d : VDst) (a : VSrc) (ty : VTy) (s : Nat) (u : Nat) : Statement (.vnarr d a ty s u) := by
  intro e he hw
  obtain rfl : _ = e := Option.some.inj he
  simp only [Instr.wellFormed, Bool.and_eq_true, decide_eq_true_eq] at hw
  have hd : d.code < 36 := VDst.code_lt (by simp_all)
  have ha : a.code < 38 := VSrc.code_lt (by simp_all)
  have hty := ty.code_lt
  simp only [encode, tagOf, engNo]
  omega
theorem vcmp (r : VRel) (u : Nat) (a : VSrc) (b : VSrc) (ty : VTy) : Statement (.vcmp r u a b ty) := by
  intro e he hw
  obtain rfl : _ = e := Option.some.inj he
  simp only [Instr.wellFormed, Bool.and_eq_true, decide_eq_true_eq] at hw
  have hr := r.code_lt
  have ha : a.code < 38 := VSrc.code_lt (by simp_all)
  have hb : b.code < 38 := VSrc.code_lt (by simp_all)
  have hty := ty.code_lt
  simp only [encode, tagOf, engNo]
  omega
theorem velse : Statement .velse := by
  intro e he _
  obtain rfl : _ = e := Option.some.inj he
  decide
theorem vend : Statement .vend := by
  intro e he _
  obtain rfl : _ = e := Option.some.inj he
  decide
theorem vvote (q : Nat) (all : Nat) : Statement (.vvote q all) := by
  intro e he hw
  obtain rfl : _ = e := Option.some.inj he
  simp only [Instr.wellFormed, Bool.and_eq_true, decide_eq_true_eq] at hw
  simp only [encode, tagOf, engNo]
  omega
theorem vsel (d : VDst) (a : VSrc) (b : VSrc) (ty : VTy) : Statement (.vsel d a b ty) := by
  intro e he hw
  obtain rfl : _ = e := Option.some.inj he
  simp only [Instr.wellFormed, Bool.and_eq_true, decide_eq_true_eq] at hw
  have hd : d.code < 36 := VDst.code_lt (by simp_all)
  have ha : a.code < 38 := VSrc.code_lt (by simp_all)
  have hb : b.code < 38 := VSrc.code_lt (by simp_all)
  have hty := ty.code_lt
  simp only [encode, tagOf, engNo]
  omega
theorem vbq (s : Nat) (imm : Nat) : Statement (.vbq s imm) := by
  intro e he hw
  obtain rfl : _ = e := Option.some.inj he
  simp only [Instr.wellFormed, Bool.and_eq_true, decide_eq_true_eq] at hw
  simp only [encode, tagOf, engNo]
  omega
theorem vcvt (d : VDst) (a : VSrc) (mode : Rnd) (sty : VTy) (ty : VTy) (s : Nat) (u : Nat) : Statement (.vcvt d a mode sty ty s u) := by
  intro e he hw
  obtain rfl : _ = e := Option.some.inj he
  simp only [Instr.wellFormed, Bool.and_eq_true, decide_eq_true_eq] at hw
  have hd : d.code < 36 := VDst.code_lt (by simp_all)
  have ha : a.code < 38 := VSrc.code_lt (by simp_all)
  have hmode := mode.code_lt
  have hsty := sty.code_lt
  have hty := ty.code_lt
  simp only [encode, tagOf, engNo]
  omega
theorem vquant (d : VDst) (a : VSrc) (b : VSrc) (ty : VTy) (s : Nat) : Statement (.vquant d a b ty s) := by
  intro e he hw
  obtain rfl : _ = e := Option.some.inj he
  simp only [Instr.wellFormed, Bool.and_eq_true, decide_eq_true_eq] at hw
  have hd : d.code < 36 := VDst.code_lt (by simp_all)
  have ha : a.code < 38 := VSrc.code_lt (by simp_all)
  have hb : b.code < 38 := VSrc.code_lt (by simp_all)
  have hty := ty.code_lt
  simp only [encode, tagOf, engNo]
  omega
theorem vdeq (d : VDst) (a : VSrc) (b : VSrc) (ty : VTy) : Statement (.vdeq d a b ty) := by
  intro e he hw
  obtain rfl : _ = e := Option.some.inj he
  simp only [Instr.wellFormed, Bool.and_eq_true, decide_eq_true_eq] at hw
  have hd : d.code < 36 := VDst.code_lt (by simp_all)
  have ha : a.code < 38 := VSrc.code_lt (by simp_all)
  have hb : b.code < 38 := VSrc.code_lt (by simp_all)
  have hty := ty.code_lt
  simp only [encode, tagOf, engNo]
  omega
theorem vrint (d : VDst) (a : VSrc) (ty : VTy) (mode : Rnd) : Statement (.vrint d a ty mode) := by
  intro e he hw
  obtain rfl : _ = e := Option.some.inj he
  simp only [Instr.wellFormed, Bool.and_eq_true, decide_eq_true_eq] at hw
  have hd : d.code < 36 := VDst.code_lt (by simp_all)
  have ha : a.code < 38 := VSrc.code_lt (by simp_all)
  have hty := ty.code_lt
  have hmode := mode.code_lt
  simp only [encode, tagOf, engNo]
  omega
theorem vexp2f (d : VDst) (a : VSrc) : Statement (.vexp2f d a) := by
  intro e he hw
  obtain rfl : _ = e := Option.some.inj he
  simp only [Instr.wellFormed, Bool.and_eq_true, decide_eq_true_eq] at hw
  have hd : d.code < 36 := VDst.code_lt (by simp_all)
  have ha : a.code < 38 := VSrc.code_lt (by simp_all)
  simp only [encode, tagOf, engNo]
  omega
theorem vscaleb (d : VDst) (a : VSrc) (b : VSrc) : Statement (.vscaleb d a b) := by
  intro e he hw
  obtain rfl : _ = e := Option.some.inj he
  simp only [Instr.wellFormed, Bool.and_eq_true, decide_eq_true_eq] at hw
  have hd : d.code < 36 := VDst.code_lt (by simp_all)
  have ha : a.code < 38 := VSrc.code_lt (by simp_all)
  have hb : b.code < 38 := VSrc.code_lt (by simp_all)
  simp only [encode, tagOf, engNo]
  omega
theorem vrcp (d : VDst) (a : VSrc) (ty : VTy) : Statement (.vrcp d a ty) := by
  intro e he hw
  obtain rfl : _ = e := Option.some.inj he
  simp only [Instr.wellFormed, Bool.and_eq_true, decide_eq_true_eq] at hw
  have hd : d.code < 36 := VDst.code_lt (by simp_all)
  have ha : a.code < 38 := VSrc.code_lt (by simp_all)
  have hty := ty.code_lt
  simp only [encode, tagOf, engNo]
  omega
theorem vrsq (d : VDst) (a : VSrc) (ty : VTy) : Statement (.vrsq d a ty) := by
  intro e he hw
  obtain rfl : _ = e := Option.some.inj he
  simp only [Instr.wellFormed, Bool.and_eq_true, decide_eq_true_eq] at hw
  have hd : d.code < 36 := VDst.code_lt (by simp_all)
  have ha : a.code < 38 := VSrc.code_lt (by simp_all)
  have hty := ty.code_lt
  simp only [encode, tagOf, engNo]
  omega
theorem vred (f : VRedFn) (d : VDst) (a : VSrc) (ty : VTy) : Statement (.vred f d a ty) := by
  intro e he hw
  obtain rfl : _ = e := Option.some.inj he
  simp only [Instr.wellFormed, Bool.and_eq_true, decide_eq_true_eq] at hw
  have hf := f.code_lt
  have hd : d.code < 36 := VDst.code_lt (by simp_all)
  have ha : a.code < 38 := VSrc.code_lt (by simp_all)
  have hty := ty.code_lt
  simp only [encode, tagOf, engNo]
  omega
theorem vtopk (d : VDst) (a : VSrc) (b : VSrc) (ty : VTy) : Statement (.vtopk d a b ty) := by
  intro e he hw
  obtain rfl : _ = e := Option.some.inj he
  simp only [Instr.wellFormed, Bool.and_eq_true, decide_eq_true_eq] at hw
  have hd : d.code < 36 := VDst.code_lt (by simp_all)
  have ha : a.code < 38 := VSrc.code_lt (by simp_all)
  have hb : b.code < 38 := VSrc.code_lt (by simp_all)
  have hty := ty.code_lt
  simp only [encode, tagOf, engNo]
  omega
theorem vperm (d : VDst) (a : VSrc) (b : VSrc) (ty : VTy) : Statement (.vperm d a b ty) := by
  intro e he hw
  obtain rfl : _ = e := Option.some.inj he
  simp only [Instr.wellFormed, Bool.and_eq_true, decide_eq_true_eq] at hw
  have hd : d.code < 36 := VDst.code_lt (by simp_all)
  have ha : a.code < 38 := VSrc.code_lt (by simp_all)
  have hb : b.code < 38 := VSrc.code_lt (by simp_all)
  have hty := ty.code_lt
  simp only [encode, tagOf, engNo]
  omega
theorem vshuf (d : VDst) (a : VSrc) (b : VSrc) (ty : VTy) : Statement (.vshuf d a b ty) := by
  intro e he hw
  obtain rfl : _ = e := Option.some.inj he
  simp only [Instr.wellFormed, Bool.and_eq_true, decide_eq_true_eq] at hw
  have hd : d.code < 36 := VDst.code_lt (by simp_all)
  have ha : a.code < 38 := VSrc.code_lt (by simp_all)
  have hb : b.code < 38 := VSrc.code_lt (by simp_all)
  have hty := ty.code_lt
  simp only [encode, tagOf, engNo]
  omega
theorem vbcast (d : VDst) (a : VSrc) (w : LaneW) (idx : Nat) : Statement (.vbcast d a w idx) := by
  intro e he hw
  obtain rfl : _ = e := Option.some.inj he
  simp only [Instr.wellFormed, Bool.and_eq_true, decide_eq_true_eq] at hw
  have hd : d.code < 36 := VDst.code_lt (by simp_all)
  have ha : a.code < 38 := VSrc.code_lt (by simp_all)
  have hw := w.code_lt
  simp only [encode, tagOf, engNo]
  omega
theorem viota (d : VDst) (imm : Nat) : Statement (.viota d imm) := by
  intro e he hw
  obtain rfl : _ = e := Option.some.inj he
  simp only [Instr.wellFormed, Bool.and_eq_true, decide_eq_true_eq] at hw
  have hd : d.code < 36 := VDst.code_lt (by simp_all)
  simp only [encode, tagOf, engNo]
  omega
theorem vslide (d : VDst) (a : VSrc) (w : LaneW) (n : Nat) : Statement (.vslide d a w n) := by
  intro e he hw
  obtain rfl : _ = e := Option.some.inj he
  simp only [Instr.wellFormed, Bool.and_eq_true, decide_eq_true_eq] at hw
  have hd : d.code < 36 := VDst.code_lt (by simp_all)
  have ha : a.code < 38 := VSrc.code_lt (by simp_all)
  have hw := w.code_lt
  simp only [encode, tagOf, engNo]
  omega
theorem vtr (d : VDst) (t : Nat) (dir : Dir) (idx : Nat) (cv : Option VTy) (mode : Rnd) : Statement (.vtr d t dir idx cv mode) := by
  intro e he hw
  obtain rfl : _ = e := Option.some.inj he
  simp only [Instr.wellFormed, Bool.and_eq_true, decide_eq_true_eq] at hw
  have hd : d.code < 36 := VDst.code_lt (by simp_all)
  have hdir := dir.code_lt
  have hcv := cvCode_lt cv
  have hmode := mode.code_lt
  simp only [encode, tagOf, engNo]
  omega
theorem vtw (a : VSrc) (t : Nat) (dir : Dir) (idx : Nat) (cv : Option VTy) (mode : Rnd) : Statement (.vtw a t dir idx cv mode) := by
  intro e he hw
  obtain rfl : _ = e := Option.some.inj he
  simp only [Instr.wellFormed, Bool.and_eq_true, decide_eq_true_eq] at hw
  have ha : a.code < 38 := VSrc.code_lt (by simp_all)
  have hdir := dir.code_lt
  have hcv := cvCode_lt cv
  have hmode := mode.code_lt
  simp only [encode, tagOf, engNo]
  omega
theorem vqpush (q : Nat) (a : VSrc) : Statement (.vqpush q a) := by
  intro e he hw
  obtain rfl : _ = e := Option.some.inj he
  simp only [Instr.wellFormed, Bool.and_eq_true, decide_eq_true_eq] at hw
  have ha : a.code < 38 := VSrc.code_lt (by simp_all)
  simp only [encode, tagOf, engNo]
  omega
theorem vqdrain : Statement .vqdrain := by
  intro e he _
  obtain rfl : _ = e := Option.some.inj he
  decide
theorem vwait (m : Nat) : Statement (.vwait m) := by
  intro e he hw
  obtain rfl : _ = e := Option.some.inj he
  simp only [Instr.wellFormed, Bool.and_eq_true, decide_eq_true_eq] at hw
  simp only [encode, tagOf, engNo]
  omega
theorem vamo (f : VAmoFn) (d : VSrc) (a : VSrc) (w : Nat) (sc : Nat) (sg : Nat) (ty : VTy) : Statement (.vamo f d a w sc sg ty) := by
  intro e he hw
  obtain rfl : _ = e := Option.some.inj he
  simp only [Instr.wellFormed, Bool.and_eq_true, decide_eq_true_eq] at hw
  have hf := f.code_lt
  have hd : d.code < 38 := VSrc.code_lt (by simp_all)
  have ha : a.code < 38 := VSrc.code_lt (by simp_all)
  have hty := ty.code_lt
  simp only [encode, tagOf, engNo]
  omega
theorem vgath (d : VDst) (a : VSrc) (w : Nat) (sc : Nat) (sg : Nat) (ty : VTy) : Statement (.vgath d a w sc sg ty) := by
  intro e he hw
  obtain rfl : _ = e := Option.some.inj he
  simp only [Instr.wellFormed, Bool.and_eq_true, decide_eq_true_eq] at hw
  have hd : d.code < 36 := VDst.code_lt (by simp_all)
  have ha : a.code < 38 := VSrc.code_lt (by simp_all)
  have hty := ty.code_lt
  simp only [encode, tagOf, engNo]
  omega
theorem vscat (d : VSrc) (a : VSrc) (w : Nat) (sc : Nat) (sg : Nat) (ty : VTy) : Statement (.vscat d a w sc sg ty) := by
  intro e he hw
  obtain rfl : _ = e := Option.some.inj he
  simp only [Instr.wellFormed, Bool.and_eq_true, decide_eq_true_eq] at hw
  have hd : d.code < 38 := VSrc.code_lt (by simp_all)
  have ha : a.code < 38 := VSrc.code_lt (by simp_all)
  have hty := ty.code_lt
  simp only [encode, tagOf, engNo]
  omega
theorem mnop : Statement .mnop := by
  intro e he _
  obtain rfl : _ = e := Option.some.inj he
  decide
theorem tcfg (d : Nat) (keep : Nat) (ty : TileTy) : Statement (.tcfg d keep ty) := by
  intro e he hw
  obtain rfl : _ = e := Option.some.inj he
  simp only [Instr.wellFormed, Bool.and_eq_true, decide_eq_true_eq] at hw
  have hty := ty.code_lt
  simp only [encode, tagOf, engNo]
  omega
theorem tzero (d : Nat) : Statement (.tzero d) := by
  intro e he hw
  obtain rfl : _ = e := Option.some.inj he
  simp only [Instr.wellFormed, Bool.and_eq_true, decide_eq_true_eq] at hw
  simp only [encode, tagOf, engNo]
  omega
theorem tld (d : Nat) (dd : Dir) (oc : Nat) (w : Nat) : Statement (.tld d dd oc w) := by
  intro e he hw
  obtain rfl : _ = e := Option.some.inj he
  simp only [Instr.wellFormed, Bool.and_eq_true, decide_eq_true_eq] at hw
  have hdd := dd.code_lt
  simp only [encode, tagOf, engNo]
  omega
theorem tst (a : Nat) (da : Dir) (oc : Nat) (w : Nat) : Statement (.tst a da oc w) := by
  intro e he hw
  obtain rfl : _ = e := Option.some.inj he
  simp only [Instr.wellFormed, Bool.and_eq_true, decide_eq_true_eq] at hw
  have hda := da.code_lt
  simp only [encode, tagOf, engNo]
  omega
theorem tmov (d : Nat) (dd : Dir) (a : Nat) (da : Dir) : Statement (.tmov d dd a da) := by
  intro e he hw
  obtain rfl : _ = e := Option.some.inj he
  simp only [Instr.wellFormed, Bool.and_eq_true, decide_eq_true_eq] at hw
  have hdd := dd.code_lt
  have hda := da.code_lt
  simp only [encode, tagOf, engNo]
  omega
theorem tscal (d : Nat) (dd : Dir) (a : Nat) (da : Dir) : Statement (.tscal d dd a da) := by
  intro e he hw
  obtain rfl : _ = e := Option.some.inj he
  simp only [Instr.wellFormed, Bool.and_eq_true, decide_eq_true_eq] at hw
  have hdd := dd.code_lt
  have hda := da.code_lt
  simp only [encode, tagOf, engNo]
  omega
theorem tadd (d : Nat) (dd : Dir) (a : Nat) (da : Dir) (b : Nat) (db : Dir) : Statement (.tadd d dd a da b db) := by
  intro e he hw
  obtain rfl : _ = e := Option.some.inj he
  simp only [Instr.wellFormed, Bool.and_eq_true, decide_eq_true_eq] at hw
  have hdd := dd.code_lt
  have hda := da.code_lt
  have hdb := db.code_lt
  simp only [encode, tagOf, engNo]
  omega
theorem mlease : Statement .mlease := by
  intro e he _
  obtain rfl : _ = e := Option.some.inj he
  decide
theorem mfree : Statement .mfree := by
  intro e he _
  obtain rfl : _ = e := Option.some.inj he
  decide
theorem mmark : Statement .mmark := by
  intro e he _
  obtain rfl : _ = e := Option.some.inj he
  decide
theorem mset (k : Nat) (f : Nat) (imm : Nat) : Statement (.mset k f imm) := by
  intro e he hw
  obtain rfl : _ = e := Option.some.inj he
  simp only [Instr.wellFormed, Bool.and_eq_true, decide_eq_true_eq] at hw
  simp only [encode, tagOf, engNo]
  omega
theorem msetq (k : Nat) (f : Nat) : Statement (.msetq k f) := by
  intro e he hw
  obtain rfl : _ = e := Option.some.inj he
  simp only [Instr.wellFormed, Bool.and_eq_true, decide_eq_true_eq] at hw
  simp only [encode, tagOf, engNo]
  omega
theorem missue (k : Nat) (q : Nat) : Statement (.missue k q) := by
  intro e he hw
  obtain rfl : _ = e := Option.some.inj he
  simp only [Instr.wellFormed, Bool.and_eq_true, decide_eq_true_eq] at hw
  simp only [encode, tagOf, engNo]
  omega
theorem mwait (m : Nat) : Statement (.mwait m) := by
  intro e he hw
  obtain rfl : _ = e := Option.some.inj he
  simp only [Instr.wellFormed, Bool.and_eq_true, decide_eq_true_eq] at hw
  simp only [encode, tagOf, engNo]
  omega
theorem mbq (s : Nat) (imm : Nat) : Statement (.mbq s imm) := by
  intro e he hw
  obtain rfl : _ = e := Option.some.inj he
  simp only [Instr.wellFormed, Bool.and_eq_true, decide_eq_true_eq] at hw
  simp only [encode, tagOf, engNo]
  omega
theorem mqdrain : Statement .mqdrain := by
  intro e he _
  obtain rfl : _ = e := Option.some.inj he
  decide
theorem mbond (n : Nat) (imm : Nat) : Statement (.mbond n imm) := by
  intro e he hw
  obtain rfl : _ = e := Option.some.inj he
  simp only [Instr.wellFormed, Bool.and_eq_true, decide_eq_true_eq] at hw
  simp only [encode, tagOf, engNo]
  omega
theorem morder : Statement .morder := by
  intro e he _
  obtain rfl : _ = e := Option.some.inj he
  decide
theorem kload : Statement .kload := by
  intro e he _
  obtain rfl : _ = e := Option.some.inj he
  decide
theorem kperm (f : Nat) (r : Nat) : Statement (.kperm f r) := by
  intro e he hw
  obtain rfl : _ = e := Option.some.inj he
  simp only [Instr.wellFormed, Bool.and_eq_true, decide_eq_true_eq] at hw
  simp only [encode, tagOf, engNo]
  omega
theorem cnop : Statement .cnop := by
  intro e he _
  obtain rfl : _ = e := Option.some.inj he
  decide
theorem cset (k : Nat) (f : Nat) (imm : Nat) : Statement (.cset k f imm) := by
  intro e he hw
  obtain rfl : _ = e := Option.some.inj he
  simp only [Instr.wellFormed, Bool.and_eq_true, decide_eq_true_eq] at hw
  simp only [encode, tagOf, engNo]
  omega
theorem csetq (k : Nat) (f : Nat) : Statement (.csetq k f) := by
  intro e he hw
  obtain rfl : _ = e := Option.some.inj he
  simp only [Instr.wellFormed, Bool.and_eq_true, decide_eq_true_eq] at hw
  simp only [encode, tagOf, engNo]
  omega
theorem cissue (k : Nat) (q : Nat) : Statement (.cissue k q) := by
  intro e he hw
  obtain rfl : _ = e := Option.some.inj he
  simp only [Instr.wellFormed, Bool.and_eq_true, decide_eq_true_eq] at hw
  simp only [encode, tagOf, engNo]
  omega
theorem ccode (i : Nat) : Statement (.ccode i) := by
  intro e he hw
  obtain rfl : _ = e := Option.some.inj he
  simp only [Instr.wellFormed, Bool.and_eq_true, decide_eq_true_eq] at hw
  simp only [encode, tagOf, engNo]
  omega
theorem cwait (m : Nat) : Statement (.cwait m) := by
  intro e he hw
  obtain rfl : _ = e := Option.some.inj he
  simp only [Instr.wellFormed, Bool.and_eq_true, decide_eq_true_eq] at hw
  simp only [encode, tagOf, engNo]
  omega
theorem cbq (s : Nat) (imm : Nat) : Statement (.cbq s imm) := by
  intro e he hw
  obtain rfl : _ = e := Option.some.inj he
  simp only [Instr.wellFormed, Bool.and_eq_true, decide_eq_true_eq] at hw
  simp only [encode, tagOf, engNo]
  omega
theorem cqdrain : Statement .cqdrain := by
  intro e he _
  obtain rfl : _ = e := Option.some.inj he
  decide
theorem cmlist (l : Nat) (w : Nat) : Statement (.cmlist l w) := by
  intro e he hw
  obtain rfl : _ = e := Option.some.inj he
  simp only [Instr.wellFormed, Bool.and_eq_true, decide_eq_true_eq] at hw
  simp only [encode, tagOf, engNo]
  omega
theorem waitaTimeout (core : Nat) : Statement (.waitaTimeout core) := fun _ he => nomatch he
theorem keystoneRewrite (core : Nat) : Statement (.keystoneRewrite core) := fun _ he => nomatch he
theorem cmlistListWrite (core : Nat) (i : Nat) : Statement (.cmlistListWrite core i) := fun _ he => nomatch he
theorem memoryReturn (core : Nat) (i : Nat) : Statement (.memoryReturn core i) := fun _ he => nomatch he
theorem copy (core : Nat) (q : Nat) : Statement (.copy core q) := fun _ he => nomatch he
theorem copyz (core : Nat) (q : Nat) : Statement (.copyz core q) := fun _ he => nomatch he
theorem gathl (core : Nat) (q : Nat) : Statement (.gathl core q) := fun _ he => nomatch he
theorem scatl (core : Nat) (q : Nat) : Statement (.scatl core q) := fun _ he => nomatch he
theorem motion (core : Nat) (q : Nat) : Statement (.motion core q) := fun _ he => nomatch he
theorem pgath (core : Nat) (q : Nat) : Statement (.pgath core q) := fun _ he => nomatch he
theorem fill (core : Nat) (q : Nat) : Statement (.fill core q) := fun _ he => nomatch he
theorem wstore (core : Nat) (q : Nat) : Statement (.wstore core q) := fun _ he => nomatch he
theorem commandCompletion (unit : CmdUnit) : Statement (.commandCompletion unit) := fun _ he => nomatch he
theorem gemm (cluster : Nat) : Statement (.gemm cluster) := fun _ he => nomatch he
theorem conv (cluster : Nat) : Statement (.conv cluster) := fun _ he => nomatch he
theorem chain (cluster : Nat) : Statement (.chain cluster) := fun _ he => nomatch he
theorem accrd (cluster : Nat) : Statement (.accrd cluster) := fun _ he => nomatch he
theorem accz (cluster : Nat) : Statement (.accz cluster) := fun _ he => nomatch he
theorem wload (cluster : Nat) : Statement (.wload cluster) := fun _ he => nomatch he
theorem girderMigration (cluster : Nat) (i : Nat) (target : Nat) : Statement (.girderMigration cluster i target) := fun _ he => nomatch he
theorem leaseGrant (cluster : Nat) : Statement (.leaseGrant cluster) := fun _ he => nomatch he
theorem leaseLapseCycles (cluster : Nat) : Statement (.leaseLapseCycles cluster) := fun _ he => nomatch he
theorem watchdog (core : Nat) : Statement (.watchdog core) := fun _ he => nomatch he
theorem postcommitLong (core : Nat) : Statement (.postcommitLong core) := fun _ he => nomatch he
theorem commitStep (gang : Nat) : Statement (.commitStep gang) := fun _ he => nomatch he
theorem haltBundleRetire (core : Nat) : Statement (.haltBundleRetire core) := fun _ he => nomatch he
theorem launchMailbox (fn : Nat) (val : Nat) : Statement (.launchMailbox fn val) := fun _ he => nomatch he
theorem dispatch : Statement .dispatch := fun _ he => nomatch he
theorem quotaEvaluation : Statement .quotaEvaluation := fun _ he => nomatch he
theorem spillRefill : Statement .spillRefill := fun _ he => nomatch he
theorem bootMailbox (core : Nat) (image : Nat) (arg : Nat) : Statement (.bootMailbox core image arg) := fun _ he => nomatch he
theorem strandStart (core : Nat) : Statement (.strandStart core) := fun _ he => nomatch he
theorem imageRegister (handle : Nat) (ctxs : List Nat) (bytes : List Nat) : Statement (.imageRegister handle ctxs bytes) := fun _ he => nomatch he
theorem bitstreamWrite (stream : Nat) (val : Nat) : Statement (.bitstreamWrite stream val) := fun _ he => nomatch he
theorem frameDelivery (stream : Nat) (data : FrameData) : Statement (.frameDelivery stream data) := fun _ he => nomatch he
theorem decodeError (stream : Nat) : Statement (.decodeError stream) := fun _ he => nomatch he
theorem layerDecision (stream : Nat) (layer : Nat) : Statement (.layerDecision stream layer) := fun _ he => nomatch he
theorem cmuDeferredWrite (core : Nat) (idx : Nat) (val : Nat) : Statement (.cmuDeferredWrite core idx val) := fun _ he => nomatch he
theorem slipwWrite (core : Nat) (val : Nat) : Statement (.slipwWrite core val) := fun _ he => nomatch he
theorem keyCtlWrite (core : Nat) (val : Nat) : Statement (.keyCtlWrite core val) := fun _ he => nomatch he
theorem parapetFire (val : Nat) : Statement (.parapetFire val) := fun _ he => nomatch he
theorem parapetArm (val : Nat) : Statement (.parapetArm val) := fun _ he => nomatch he
theorem parapetDisarm (val : Nat) : Statement (.parapetDisarm val) := fun _ he => nomatch he
theorem parapetClr : Statement .parapetClr := fun _ he => nomatch he
theorem parapetDesignate (val : Nat) : Statement (.parapetDesignate val) := fun _ he => nomatch he
theorem parapetPreempt (core : Nat) : Statement (.parapetPreempt core) := fun _ he => nomatch he
theorem haltRequest (core : Nat) (val : Nat) : Statement (.haltRequest core val) := fun _ he => nomatch he
theorem partnerTimeout : Statement .partnerTimeout := fun _ he => nomatch he
theorem parapetDeadline : Statement .parapetDeadline := fun _ he => nomatch he
theorem outputSense (out : Nat) : Statement (.outputSense out) := fun _ he => nomatch he
theorem errCorrClr (core : Nat) : Statement (.errCorrClr core) := fun _ he => nomatch he
theorem debugStop (core : Nat) : Statement (.debugStop core) := fun _ he => nomatch he
theorem debugResume (core : Nat) : Statement (.debugResume core) := fun _ he => nomatch he
theorem contextConfigure (ctx : Nat) (cfg : CtxConfig) : Statement (.contextConfigure ctx cfg) := fun _ he => nomatch he
theorem pipelineInstanceCreate (ctx : Nat) (req : InstReq) : Statement (.pipelineInstanceCreate ctx req) := fun _ he => nomatch he
theorem pipelineInstanceDestroy (ctx : Nat) : Statement (.pipelineInstanceDestroy ctx) := fun _ he => nomatch he
theorem carveSet (cluster : Nat) (units : Nat) : Statement (.carveSet cluster units) := fun _ he => nomatch he
theorem publishedBufferCreate (ctx : Nat) (handle : Nat) (desc : BufDesc) : Statement (.publishedBufferCreate ctx handle desc) := fun _ he => nomatch he
theorem apertureCreate (ctx : Nat) (i : Nat) (desc : ApDesc) : Statement (.apertureCreate ctx i desc) := fun _ he => nomatch he
theorem streamCreate (stream : Nat) (ctx : Nat) (desc : StreamDesc) : Statement (.streamCreate stream ctx desc) := fun _ he => nomatch he
theorem xidRecordWrite (xid : Nat) (xrec : XidRec) : Statement (.xidRecordWrite xid xrec) := fun _ he => nomatch he
theorem contextUnfence (ctx : Nat) : Statement (.contextUnfence ctx) := fun _ he => nomatch he
theorem returnToService (unit : UnitId) : Statement (.returnToService unit) := fun _ he => nomatch he
theorem predictiveFailure (unit : UnitId) : Statement (.predictiveFailure unit) := fun _ he => nomatch he
theorem invalPage (xid : Nat) (page : Nat) : Statement (.invalPage xid page) := fun _ he => nomatch he
theorem invalXid (xid : Nat) : Statement (.invalXid xid) := fun _ he => nomatch he
theorem invalAll : Statement .invalAll := fun _ he => nomatch he
theorem invalidationDone : Statement .invalidationDone := fun _ he => nomatch he
theorem pageWalk (stack : Nat) (walker : Nat) : Statement (.pageWalk stack walker) := fun _ he => nomatch he
theorem pageMigration (xid : Nat) (va : Nat) (frame : Nat) (phase : Nat) : Statement (.pageMigration xid va frame phase) := fun _ he => nomatch he
theorem dirtyLineDrain (lv : CmLevel) (unit : Nat) (i : Nat) : Statement (.dirtyLineDrain lv unit i) := fun _ he => nomatch he
theorem wstRefreshSlot (group : Nat) : Statement (.wstRefreshSlot group) := fun _ he => nomatch he
theorem inboundWrite (fn : Nat) (off : Nat) (bytes : List Nat) : Statement (.inboundWrite fn off bytes) := fun _ he => nomatch he
theorem inboundRead (fn : Nat) (off : Nat) (n : Nat) (noSnoop : Bool) : Statement (.inboundRead fn off n noSnoop) := fun _ he => nomatch he
theorem inboundAtomic (fn : Nat) (off : Nat) (op : HostAtomic) (sz : WSize) : Statement (.inboundAtomic fn off op sz) := fun _ he => nomatch he
theorem atsInvalidation (fn : Nat) (pasid : Nat) (page : Nat) (n : Nat) : Statement (.atsInvalidation fn pasid page n) := fun _ he => nomatch he
theorem msixUnmask (vec : Nat) : Statement (.msixUnmask vec) := fun _ he => nomatch he
theorem ideKeyProgram (stream : Nat) (key : Nat) : Statement (.ideKeyProgram stream key) := fun _ he => nomatch he
theorem getVersion : Statement .getVersion := fun _ he => nomatch he
theorem getCapabilities : Statement .getCapabilities := fun _ he => nomatch he
theorem negotiateAlgorithms (asym : Nat) (hash : Nat) : Statement (.negotiateAlgorithms asym hash) := fun _ he => nomatch he
theorem getDigests : Statement .getDigests := fun _ he => nomatch he
theorem getCertificate (slot : Nat) (off : Nat) (len : Nat) : Statement (.getCertificate slot off len) := fun _ he => nomatch he
theorem setCertificate (slot : Nat) (chain : List Nat) : Statement (.setCertificate slot chain) := fun _ he => nomatch he
theorem challenge (slot : Nat) (nonce : Nat) : Statement (.challenge slot nonce) := fun _ he => nomatch he
theorem getMeasurements (idx : Nat) (nonce : Nat) : Statement (.getMeasurements idx nonce) := fun _ he => nomatch he
theorem keyExchange (slot : Nat) (nonce : Nat) : Statement (.keyExchange slot nonce) := fun _ he => nomatch he
theorem finish (mac : Nat) : Statement (.finish mac) := fun _ he => nomatch he
theorem endSession : Statement .endSession := fun _ he => nomatch he
theorem linkTraining (width : Nat) (rate : Nat) (flit : Bool) : Statement (.linkTraining width rate flit) := fun _ he => nomatch he
theorem vfFlr (fn : Nat) : Statement (.vfFlr fn) := fun _ he => nomatch he
theorem pfFlr : Statement .pfFlr := fun _ he => nomatch he
theorem powerGood (r : BootResult) : Statement (.powerGood r) := fun _ he => nomatch he
theorem powerLoss : Statement .powerLoss := fun _ he => nomatch he
theorem powerLimit (watts : Nat) : Statement (.powerLimit watts) := fun _ he => nomatch he
theorem thermalLimit (celsius : Nat) : Statement (.thermalLimit celsius) := fun _ he => nomatch he
theorem coreGate (core : Nat) : Statement (.coreGate core) := fun _ he => nomatch he
theorem clusterGate (cluster : Nat) : Statement (.clusterGate cluster) := fun _ he => nomatch he
theorem hbmSelfRefresh (stack : Nat) : Statement (.hbmSelfRefresh stack) := fun _ he => nomatch he
theorem powerWake (unit : UnitId) : Statement (.powerWake unit) := fun _ he => nomatch he
theorem storePerformed (core : Nat) (i : Nat) : Statement (.storePerformed core i) := fun _ he => nomatch he
theorem managementPathWrite (unit : Nat) (idx : Nat) (val : Nat) : Statement (.managementPathWrite unit idx val) := fun _ he => nomatch he
theorem pageRetire (page : Nat) : Statement (.pageRetire page) := fun _ he => nomatch he
theorem streamReclaim (stream : Nat) : Statement (.streamReclaim stream) := fun _ he => nomatch he
theorem flashRewrite (bytes : List Nat) : Statement (.flashRewrite bytes) := fun _ he => nomatch he
theorem pinnedServiceWithdrawal (core : Nat) (back : Bool) : Statement (.pinnedServiceWithdrawal core back) := fun _ he => nomatch he

end Laws.EncodeTag

end Sys2Proof
end

