-- ==== Sys2Proof/Laws/Words.lean ====
section
/-! SUPPORT. What the shared operations of every word answer: word, wordPre and guarded on a value, a stall and a fault, and
what retiring leaves of the strand. -/

namespace Sys2Proof.Machine

/-! ### Outcomes -/

@[simp] theorem outcome_ok (e : Eng) (s t : State) : outcome e s (.ok t) = .next t := rfl
@[simp] theorem outcome_error (e : Eng) (s : State) (x : Exc) : outcome e s (.error x) = .next (x.state e s) := rfl
@[simp] theorem word_ok (e : Eng) (s t : State) : word e s (.ok t) = .next (t.retire e) := rfl
@[simp] theorem word_error (e : Eng) (s : State) (x : Exc) : word e s (.error x) = .next (x.state e s) := rfl
@[simp] theorem state_stall (e : Eng) (s : State) : Exc.state e s .stall = s := rfl
@[simp] theorem state_hold (e : Eng) (s t : State) : Exc.state e s (.hold t) = t := rfl

/-- A word answers a next state whatever its effect is: a value retires, anything else leaves the state of its reason. -/
theorem outcome_next (e : Eng) (s : State) (r : Res State) : ∃ t, outcome e s r = .next t := by
  cases r <;> exact ⟨_, rfl⟩
theorem word_next (e : Eng) (s : State) (r : Res State) : ∃ t, word e s r = .next t := outcome_next e s _
theorem wordPre_next (e : Eng) (s : State) (r : Res State) : ∃ t, wordPre e s r = .next t := by
  unfold wordPre
  split
  · exact outcome_next e s _
  · exact word_next e s r

theorem wordPre_run {e : Eng} {s : State} (h : s.st.commit ≠ .done) (r : Res State) : wordPre e s r = word e s r := by
  unfold wordPre
  rw [if_neg h]
theorem wordPre_ok {e : Eng} {s : State} (h : s.st.commit ≠ .done) (t : State) :
    wordPre e s (.ok t) = .next (t.retire e) := by rw [wordPre_run h, word_ok]
/-- In the post-commit region such a word is ILLEGAL_OPERAND (R370). -/
theorem wordPre_done {e : Eng} {s : State} (h : s.st.commit = .done) (r : Res State) :
    wordPre e s r = outcome e s (raiseF .illegalOperand) := by
  unfold wordPre
  rw [if_pos h]

theorem guarded_pass {g : Guard} {s : State} (h : s.guardOk g = true) (r : Res State) : guarded g s r = r := by
  unfold guarded
  rw [if_pos h]
theorem guarded_fail {g : Guard} {s : State} (h : s.guardOk g = false) (r : Res State) : guarded g s r = .ok s := by
  unfold guarded
  rw [if_neg (by simp [h])]

/-! ### The acting strand -/

theorem present_cur {s : State} (h : s.present = true) : s.cur < s.cores.length := by
  simp only [State.present, Bool.and_eq_true, decide_eq_true_eq] at h
  exact h.1
theorem present_shape {s : State} (h : s.present = true) : s.st.shape = true := by
  simp only [State.present, Bool.and_eq_true] at h
  exact h.2
theorem present_s {s : State} (h : s.present = true) : s.st.regs.s.length = 32 := by
  have := present_shape h
  simp only [Strand.shape, Regs.shape, Bool.and_eq_true, beq_iff_eq] at this
  omega
theorem present_b {s : State} (h : s.present = true) : s.st.regs.b.length = 8 := by
  have := present_shape h
  simp only [Strand.shape, Regs.shape, Bool.and_eq_true, beq_iff_eq] at this
  omega
theorem present_v {s : State} (h : s.present = true) : s.st.regs.v.length = 32 := by
  have := present_shape h
  simp only [Strand.shape, Regs.shape, Bool.and_eq_true, beq_iff_eq] at this
  omega
theorem present_t {s : State} (h : s.present = true) : s.st.regs.t.length = 8 := by
  have := present_shape h
  simp only [Strand.shape, Regs.shape, Bool.and_eq_true, beq_iff_eq] at this
  omega

theorem Strand.eng_modEng (t : Strand) (e : Eng) (f : EngSt → EngSt) : (t.modEng e f).eng e = f (t.eng e) := by
  cases e <;> rfl
theorem Strand.eng_modEng_ne (t : Strand) (e e' : Eng) (f : EngSt → EngSt) (h : e ≠ e') :
    (t.modEng e f).eng e' = t.eng e' := by
  cases e <;> cases e' <;> first | exact absurd rfl h | rfl

/-- The strand after a word of an engine has issued. -/
theorem st_retire (s : State) (e : Eng) (h : s.cur < s.cores.length) :
    (s.retire e).st = { (s.st.modEng e (fun x => x.step s.now)) with stall := 0, issued := true } := by
  unfold State.retire
  rw [st_modSt _ _ h]
theorem regs_retire (s : State) (e : Eng) (h : s.cur < s.cores.length) : (s.retire e).st.regs = s.st.regs := by
  rw [st_retire s e h]
  cases e <;> rfl
theorem qs_retire (s : State) (e : Eng) (h : s.cur < s.cores.length) : (s.retire e).st.qs = s.st.qs := by
  rw [st_retire s e h]
  cases e <;> rfl
theorem getS_retire (s : State) (e : Eng) (n : Nat) (h : s.cur < s.cores.length) :
    (s.retire e).getS n = s.getS n := by
  unfold State.getS
  rw [regs_retire s e h]
theorem getC_retire (s : State) (e : Eng) (n : Nat) (h : s.cur < s.cores.length) :
    (s.retire e).getC n = s.getC n := by
  unfold State.getC
  rw [regs_retire s e h]
theorem getB_retire (s : State) (e : Eng) (n : Nat) (h : s.cur < s.cores.length) :
    (s.retire e).getB n = s.getB n := by
  unfold State.getB
  rw [regs_retire s e h]

/-- Retiring is the whole of what issuing changes of the sequencers, where the effect before it left them alone. -/
theorem wordDone_retire {e : Eng} {s t : State} (hc : t.cur < t.cores.length) (hn : t.now = s.now)
    (he : t.st.eng e = s.st.eng e) : wordDone e s (t.retire e) := by
  refine ⟨?_, ?_, ?_⟩
  · rw [st_retire t e hc]
    rw [← he, ← hn]
    cases e <;> rfl
  · rw [st_retire t e hc]
  · rw [st_retire t e hc]

/-! ### Writes of a scalar register -/

theorem cur_lt_wrS {s : State} (n bound : Nat) (v : Dbl) (h : s.cur < s.cores.length) :
    (s.wrS n bound v).cur < (s.wrS n bound v).cores.length := by
  unfold State.wrS
  split
  · exact h
  · simpa using h
theorem cur_lt_putS {s : State} (n : Nat) (v : Dbl) (h : s.cur < s.cores.length) :
    (s.putS n v).cur < (s.putS n v).cores.length := by
  unfold State.putS
  split
  · exact h
  · simpa using h
theorem eng_wrS {s : State} (n bound : Nat) (v : Dbl) (e : Eng) (h : s.cur < s.cores.length) :
    (s.wrS n bound v).st.eng e = s.st.eng e := by
  unfold State.wrS
  split
  · rfl
  · rw [st_modSt _ _ h]
    cases e <;> rfl
theorem eng_putS {s : State} (n : Nat) (v : Dbl) (e : Eng) (h : s.cur < s.cores.length) :
    (s.putS n v).st.eng e = s.st.eng e := by
  unfold State.putS
  split
  · rfl
  · rw [st_modSt _ _ h]
    cases e <;> rfl

/-- A word whose effect is one bounded write of a scalar register. -/
theorem writesS_wrS {i : Instr} {e : Eng} {s : State} {d bound : Nat} {v : Dbl} (hp : s.present = true) (hd : d < 32)
    (h : exec i s = .next ((s.wrS d bound v).retire e)) : writesS i e s d v := by
  have hc := present_cur hp
  refine ⟨_, h, wordDone_retire (cur_lt_wrS d bound v hc) (by simp) (eng_wrS d bound v e hc), ?_⟩
  rw [getS_retire _ e _ (cur_lt_wrS d bound v hc)]
  split
  · rename_i h0; subst h0; rfl
  · rename_i h0
    exact getS_wrS_same s d bound v hc h0 (by rw [present_s hp]; exact hd)

/-- A word whose effect is one interlocked write of a scalar register. -/
theorem writesS_putS {i : Instr} {e : Eng} {s : State} {d : Nat} {v : Dbl} (hp : s.present = true) (hd : d < 32)
    (h : exec i s = .next ((s.putS d v).retire e)) : writesS i e s d v := by
  have hc := present_cur hp
  refine ⟨_, h, wordDone_retire (cur_lt_putS d v hc) (by simp) (eng_putS d v e hc), ?_⟩
  rw [getS_retire _ e _ (cur_lt_putS d v hc)]
  split
  · rename_i h0; subst h0; rfl
  · rename_i h0
    exact getS_putS_same s d v hc h0 (by rw [present_s hp]; exact hd)

end Sys2Proof.Machine
end

