-- ==== Sys2Proof/Tests/Base.lean ====
section
/-! SUPPORT. Small states for the tests: a device on whose core 0 a strand runs, and what tests ask of an outcome. -/

namespace Sys2Proof.Tests

open Sys2Proof.Machine

/-- An image with a text, whose strands have 4096 bytes of scratchpad. -/
def img (ws : List Nat) : Image := { handle := 1, ctxs := [0], text := ws, scratch := 4096, entry := some 0 }

/-- A strand of gang 1. -/
def strand1 : Strand := { live := true, gang := 1, image := 1, allot := 4096, task := { image := 1 } }

/-- Gang 1, placed on core 0. -/
def gang1 : Gang := { id := 1, task := { image := 1 }, members := [{ core := 0 }], level := 4, startedAt := 0 }

/-- The device after reset with a strand of gang 1 on core 0 and that strand's image resident. -/
def dev (ws : List Nat) (f : Strand → Strand) : State :=
  (State.reset.modSched (fun d => { d with gangs := [gang1], nextGang := 2, images := [img ws] })).modCore 0
    (fun c => { c with imem := [img ws], ord := f strand1 })

/-- A scalar register of a strand set. -/
def setS (n v : Nat) (t : Strand) : Strand := { t with regs := { t.regs with s := t.regs.s.set n (BitVec.ofNat 64 v) } }

/-- A vector register of a strand set. -/
def setV (n v : Nat) (t : Strand) : Strand :=
  { t with regs := { t.regs with v := t.regs.v.set n (BitVec.ofNat 1024 v) } }

/-- A data queue of a strand set. -/
def setQ (q : Nat) (l : List (Option Dbl)) (t : Strand) : Strand := { t with qs := { t.qs with q := t.qs.q.set q l } }

/-- An outcome is a next state of which p holds. -/
def gives (o : Host.Outcome State Fault Refusal) (p : State → Bool) : Bool :=
  match o with
  | .next t => p t
  | .fault _ => false
  | .refused _ => false

/-- A result is a value of which p holds. -/
def yields {α : Type} (r : Res α) (p : α → Bool) : Bool :=
  match r with
  | .ok a => p a
  | .error _ => false

theorem yields_iff {α : Type} (r : Res α) (p : α → Bool) : yields r p = true ↔ ∃ a, r = .ok a ∧ p a = true := by
  cases r <;> simp [yields]

/-- A result is a fault of a code, with or without bytes written before it. -/
def faults {α : Type} (r : Res α) (c : FCode) : Bool :=
  match r with
  | .error (.fault f) => f.code == c
  | .error (.partly _ f) => f.code == c
  | _ => false

/-- The record that a taken fault leaves in context 0's fault area: its code and the engine. -/
def recorded (t : State) (c : FCode) (engine : Nat) : Bool :=
  mnat t.home ((t.ctx 0).faultBase) 1 == c.num && mnat t.home ((t.ctx 0).faultBase + 3) 1 == engine && (t.ctx 0).fenced

end Sys2Proof.Tests
end

