-- ==== Sys2Proof/Tests/WitnessC.lean ====
section
/-! SUPPORT. For each statement about tiles, pins, launches by SPAWN, system registers and the end of a strand: states and
operands that meet its hypotheses. -/

set_option Elab.async false

namespace Sys2Proof.Tests

open Sys2Proof.Machine

/-! TileWords: context 0 has a pipeline whose edge 0 runs from stage 2 to stage 3, with one slot on core 0. -/

def edge0 : Edge := { src := 2, dst := 3, cls := 0, quota := 1 }
def slot0 (st : SlotSt) (count gang : Nat) : Slot :=
  { core := 0, unit := 127, cls := 0, gen := 5, st := st, count := count, gang := gang, bytes := [] }
def tileDev (stage : Nat) (x : Slot) (f : Strand → Strand) : State :=
  let s := dev [0, 0] (fun t => f { t with task := { t.task with stage := stage } })
  (s.modSched (fun d => { d with
      images := [{ img [0, 0] with edges := [edge0] }]
      ctxs := lmod d.ctxs 0 (fun c => { c with inst := some (1, 0, 0) }) })).modCluster 0
    (fun c => { c with carve := 1, parts := [{ ctx := 0, edge := 0, cls := 0, slots := [x], waiting := [] }] })
def handle0 : Nat := Handle.num { gen := 5, core := 0, unit := 127, cls := 0 }

def tallocDev (st : SlotSt) : State := tileDev 2 (slot0 st 0 0) (setS 3 15)
theorem witness_talloc : (tallocDev .free).able ∧ ((tallocDev .free).edgesOf 0)[((tallocDev .free).rdS 2).toNat]? = some edge0
    ∧ edge0.src = (tallocDev .free).st.task.stage ∧ edge0.cls = tclsCode .c4 ∧ ((tallocDev .free).rdS 3).toNat ≤ 15
    ∧ (tallocDev .free).st.acc.length < 64
    ∧ (tallocDev .free).partition 0 0 = some (0, { ctx := 0, edge := 0, cls := 0, slots := [slot0 .free 0 0], waiting := [] })
    ∧ Partition.firstFree { ctx := 0, edge := 0, cls := 0, slots := [slot0 .free 0 0], waiting := [] } = some (slot0 .free 0 0)
    ∧ Partition.firstFree { ctx := 0, edge := 0, cls := 0, slots := [slot0 .sealed 1 0], waiting := [] } = none
    ∧ (tallocDev .sealed).able
    ∧ gives (exec (.talloc .c4 4 2 3 .always) (tallocDev .free)) (fun t => t.getS 4 == BitVec.ofNat 64 handle0) = true := by
  unfold State.able
  decide +kernel

theorem witness_talloc_faults : (tallocDev .free).st.poll = none ∧ ((tallocDev .free).edgesOf 0)[1]? = none
    ∧ (tileDev 2 (slot0 .free 0 0) (setS 3 16)).able ∧ 15 < 16 ∧ (tileDev 3 (slot0 .free 0 0) (setS 3 15)).able
    ∧ edge0.src ≠ 3 ∧ edge0.cls ≠ tclsCode .c16
    ∧ gives (exec (.talloc .c4 4 2 3 .always) (tileDev 2 (slot0 .free 0 0) (setS 3 16))) (fun t => recorded t .illegalOperand 0) = true
    ∧ gives (exec (.talloc .c4 4 2 3 .always) (tileDev 3 (slot0 .free 0 0) (setS 3 15))) (fun t => recorded t .illegalOperand 0) = true
    ∧ gives (exec (.talloc .c4 4 2 3 .always) (tallocDev .sealed)) (fun t =>
        ((t.cluster 0).parts.map (·.waiting)) == [[0]] && t.st.es.pc == 0) = true := by
  unfold State.able
  decide +kernel

/-- s[1] holds the handle of the slot, or the one of its generation before. -/
def handleDev (stage : Nat) (x : Slot) : State := tileDev stage x (fun t => setS 1 handle0 (setS 2 (handle0 - 65536) t))
theorem witness_tiles : (handleDev 2 (slot0 .opened 15 1)).able
    ∧ ((handleDev 2 (slot0 .opened 15 1)).rdS 1).toNat < 2 ^ 32
    ∧ (handleDev 2 (slot0 .opened 15 1)).slotNamed (handleOf handle0) = some (slot0 .opened 15 1)
    ∧ (handleDev 2 (slot0 .opened 15 1)).slotNamed (handleOf (handle0 - 65536)) = some (slot0 .opened 15 1)
    ∧ (slot0 .opened 15 1).gen = (handleOf handle0).gen ∧ (slot0 .opened 15 1).gen ≠ (handleOf (handle0 - 65536)).gen
    ∧ (slot0 .opened 15 1).gang = (handleDev 2 (slot0 .opened 15 1)).st.gang
    ∧ (slot0 .opened 0 1).count = 0 ∧ (slot0 .opened 0 1).gang = (handleDev 2 (slot0 .opened 0 1)).st.gang
    ∧ (slot0 .sealed 15 0).st ≠ .opened
    ∧ (handleDev 2 (slot0 .free 0 0)).admits (slot0 .free 0 0) = false
    ∧ (handleDev 3 (slot0 .sealed 15 0)).admits (slot0 .sealed 15 0) = true
    ∧ (handleDev 3 (slot0 .sealed 15 0)).countLeft (slot0 .sealed 15 0) = true
    ∧ (handleDev 3 (slot0 .sealed 0 0)).countLeft (slot0 .sealed 0 0) = false
    ∧ accRoom (handleDev 3 (slot0 .sealed 15 0)).st.acc 0 127 = true
    ∧ (handleDev 3 (slot0 .sealed 15 0)).st.decs.length < 255
    ∧ (handleDev 3 (slot0 .sealed 15 0)).cmdsName 0 ⟨0, 127⟩ = false
    ∧ gives (exec (.tseal 1 .always) (handleDev 2 (slot0 .opened 15 1))) (fun t => t.st.es.pc == 4) = true
    ∧ gives (exec (.tread 4 1 .always) (handleDev 3 (slot0 .sealed 15 0))) (fun t => t.st.decs.length == 1) = true
    ∧ gives (exec (.tret 1 .always) (handleDev 3 (slot0 .sealed 15 0))) (fun t => t.st.decs.length == 1) = true
    ∧ (handleDev 2 (slot0 .opened 15 1)).cmdsName 0 ⟨0, 127⟩ = false
    ∧ gives (exec (.tret 1 .always) (handleDev 2 (slot0 .opened 15 1))) (fun t =>
        (slotAt (t.cluster 0).parts 0 127).any (fun y => y.give)) = true
    ∧ gives (exec (.tseal 2 .always) (handleDev 2 (slot0 .opened 15 1))) (fun t => recorded t .caissonCount 0) = true := by
  unfold State.able
  decide +kernel

/-- A handle with a bit above its fields, one that names no slot, and decrements or entries that have no room. -/
def oddHandle (n : Nat) : State := tileDev 3 (slot0 .sealed 15 0) (fun t => setS 1 n { t with decs := List.replicate 255 ⟨0, 1, 5⟩ })
theorem witness_tiles_faults : (oddHandle (2 ^ 32)).able ∧ 2 ^ 32 ≤ ((oddHandle (2 ^ 32)).rdS 1).toNat
    ∧ (oddHandle 0).able ∧ (oddHandle 0).slotNamed (handleOf ((oddHandle 0).rdS 1).toNat) = none
    ∧ (oddHandle handle0).admits (slot0 .sealed 15 0) = true ∧ (oddHandle handle0).countLeft (slot0 .sealed 15 0) = true
    ∧ 255 ≤ (oddHandle handle0).st.decs.length
    ∧ gives (exec (.tret 1 .always) (oddHandle (2 ^ 32))) (fun t => recorded t .illegalOperand 0) = true
    ∧ gives (exec (.tseal 1 .always) (oddHandle 0)) (fun t => recorded t .permission 0) = true
    ∧ gives (exec (.tread 4 1 .always) (oddHandle handle0)) (fun t => recorded t .illegalOperand 0) = true := by
  unfold State.able
  decide +kernel

/-- A store into the gang's open tile, of which the strand has an access entry that writes. -/
def tileStore : State := tileDev 2 (slot0 .opened 15 1) (fun t =>
  { setS 1 (tileBase + 127 * 4096) (setS 2 5 t) with acc := [⟨0, 127, 0, true, false⟩] })
theorem witness_storeBytes_tile : tileStore.shape = true ∧ tileStore.able
    ∧ yields (tileStore.resolve 0 (tileStore.effAddr 1 8 1 8) .wr) (fun x => x.1 == .tile 0 (127 * 4096 + 8)) = true
    ∧ (slotAt (tileStore.cluster 0).parts 0 ((127 * 4096 + 8) / 4096)).isSome = true
    ∧ gives (exec (.st 2 1 0 .dbl 1) tileStore) (fun t => t.byteAt (.tile 0 (127 * 4096 + 8)) == 5#8) = true := by
  unfold State.able
  decide +kernel

/-! PinsAndSpawns -/

def buf3 : PubBuf := { handle := 4095, desc := ⟨2 ^ 36, 1, 4096, 2 ^ 13, 2 ^ 14, 0⟩, sel := [true], version := 8 }
def pinDev (f : Strand → Strand) : State :=
  (dev [0, 0] (fun t => f (setS 1 4095 t))).modSched
    (fun d => { d with ctxs := lmod d.ctxs 0 (fun c => { c with bufs := [buf3] }) })
theorem witness_pins : (pinDev id).able ∧ ((pinDev id).rdS 1).toNat = 4095
    ∧ ((pinDev id).ctx (pinDev id).st.task.ctx).buf 4095 = some buf3 ∧ (pinDev id).st.pins.length < 4
    ∧ (pinDev id).st.pins.any (fun p => p.buf == 4095) = false
    ∧ ((pinDev id).gang (pinDev id).st.gang) = some gang1 ∧ gang1.wset.any (fun w => w.buf == 4095) = false
    ∧ (pinDev (fun t => { t with pins := [⟨4095, [true]⟩] })).st.pins.any (fun p => p.buf == 4095) = true
    ∧ gives (exec (.psnap 2 1 .always) (pinDev id)) (fun t => t.getS 2 == 8#64 && t.st.pins == [⟨4095, [true]⟩]) = true
    ∧ gives (exec (.prel 1 .always) (pinDev id)) (fun t => recorded t .illegalOperand 0) = true := by
  unfold State.able
  decide +kernel

/-- A launch record of image 1 in context 0: one strand at level 23. -/
def record0 : Nat := 1 + 23 * 2 ^ 16 + 2 ^ 24 + 15 * 2 ^ 32 + 2 ^ 64
def spawnDev : State :=
  (dev [0, 0] (setS 1 (spadBase + 4032))).modCore 0 (fun c => { c with spad := mputn c.spad 4032 64 record0 })
theorem witness_spawns : spawnDev.able ∧ (spawnDev.rdS 1).toNat = spadBase + 4032 ∧ 4032 % 64 = 0
    ∧ 4032 + 64 ≤ spawnDev.st.allot ∧ spawnDev.recordOk (spawnDev.own 4032 64) 1 false = true
    ∧ lrCtx (spawnDev.own 4032 64) = spawnDev.st.task.ctx ∧ spawnDev.st.spawns < 32
    ∧ gives (exec (.spawn 1 .always) spawnDev) (fun t => t.st.held == [.spawn record0 (spadBase + 4032)]) = true := by
  unfold State.able
  decide +kernel

def spawnAt (a n : Nat) : State := spawnDev.modSt (fun t => setS 1 a { t with held := List.replicate n (.spawn record0 0) })
theorem witness_pins_faults : (pinDev (setS 1 4096)).able ∧ 4096 ≤ ((pinDev (setS 1 4096)).rdS 1).toNat
    ∧ ((pinDev (setS 1 7)).ctx 0).buf 7 = none
    ∧ (spawnAt (spadBase + 4040) 0).able ∧ (spadBase + 4040) % 64 ≠ 0 ∧ (spadBase + 4096) % 64 = 0
    ∧ window (spadBase + 4096) = .spad none 4096 ∧ spawnDev.st.allot < 4096 + 64 ∧ window (spadBase + 4032) = .spad none 4032
    ∧ 32 ≤ (spawnAt (spadBase + 4032) 32).st.spawns ∧ spawnDev.recordOk (spawnDev.own 3968 64) 1 false = false
    ∧ gives (exec (.psnap 2 1 .always) (pinDev (setS 1 4096))) (fun t => recorded t .illegalOperand 0) = true
    ∧ gives (exec (.spawn 1 .always) (spawnAt (spadBase + 4040) 0)) (fun t => recorded t .alignment 0) = true
    ∧ gives (exec (.spawn 1 .always) (spawnAt (spadBase + 4096) 0)) (fun t => recorded t .scratchBounds 0) = true
    ∧ gives (exec (.spawn 1 .always) (spawnAt (spadBase + 4032) 32)) (fun t => recorded t .illegalOperand 0) = true := by
  unfold State.able
  decide +kernel

/-! SystemRegisters, StrandEndings -/

def cmuDev : State := (dev [0] id).modSched (fun d => { d with ctxs := lmod d.ctxs 0 (fun c => { c with stream := some 383 }) })
theorem witness_systemRegisters : cmuDev.present = true ∧ cmuDev.able ∧ cmuDev.shape = true ∧ queueCode 15 = true
    ∧ sysPrivileged 0x041 = false ∧ sysPrivileged 0x035 = false ∧ 0x047F < 0x480 ∧ (cmuDev.ctx cmuDev.st.task.ctx).stream.isSome = true
    ∧ sysPrivileged 0x700 = true ∧ (cmuDev.core cmuDev.cur).inPar = false
    ∧ gives (exec (.syswr 0 0x714) cmuDev) (fun t => recorded t .privilege 0) = true
    ∧ gives (exec (.sysrd 4 0x002) cmuDev) (fun t => t.getS 4 == 256#64) = true
    ∧ gives (exec (.syswr 0 0x041) cmuDev) (fun t => t.st.sysq == [(0x041, 0)]) = true := by
  unfold State.able
  decide +kernel

/-- SEQ_SLIPW and the WAITA limit, and the flags SAT and INX, of which a word of the same cycle has set SAT. -/
def sysDev : State := dev [0] (fun t => setS 1 17 { t with flags := 0x28#6, cyc := { t.cyc with fls := 0x20#6 } })
theorem witness_systemRegisters_writes : sysDev.able ∧ ((sysDev.rdS 1).toNat) = 17 ∧ sysDev.cur < 128 ∧ sysDev.shape = true
    ∧ (0x28).testBit 3 = true ∧ sysDev.st.cyc.fls.getLsbD 3 = false ∧ sysDev.st.cyc.fls.getLsbD 5 = true ∧ sysDev.st.flHz = []
    ∧ (sysDev.sysWrite 0x010 0x28).st.flags = 0x20#6
    ∧ gives (exec (.syswr 1 0x002) sysDev) (fun t => t.st.slipw == 17 && t.st.bound t.now == 256 && t.st.bound (t.now + 1) == 17) = true
    ∧ gives (exec (.syswr 1 0x041) sysDev) (fun t => t.st.wtimeout == 0 && (t.advance 1).st.wtimeout == 17) = true
    ∧ (sysDev.sysWrite 0x030 9).sysRead 0x030 = 9 ∧ (sysDev.sysWrite 0x030 11).sysRead 0x030 = sysDev.sysRead 0x030 := by
  unfold State.able
  decide +kernel

def endDev (c : CommitSt) : State := dev [0, 0] (fun t => setS 31 9 { t with commit := c })
theorem witness_strandEndings : (endDev .run).present = true ∧ (endDev .run).st.commit = .run
    ∧ (endDev .drain).st.commit = .drain ∧ (endDev .done).st.commit = .done ∧ (endDev .run).st.rets = []
    ∧ ((endDev .run).core 0).inPar = false ∧ (endDev .run).st.task.disc < 4 ∧ (endDev .run).st.gang ≠ 0
    ∧ (endDev .run).gang (endDev .run).st.gang = some gang1
    ∧ gives (exec (.trap 31 7) (endDev .run)) (fun t => recorded t .trap 0) = true
    ∧ gives (exec .halt (endDev .run)) (fun t => t.st.halted) = true := by decide +kernel
theorem witness_strandEndings_region : (endDev .done).st.commit = .done ∧ Instr.engine .mlease = some .m
    ∧ (endDev .done).passes .mlease = true ∧ (endDev .done).passes (.psnap 2 1 (.cond 3 0)) = false
    ∧ (endDev .done).present = true
    ∧ gives (exec (.psnap 2 1 (.cond 3 0)) (endDev .done)) (fun t => t.st.es.pc == 4 && t.st.pins == []) = true
    ∧ postCommitOk .mlease = false ∧ postCommitOk .commit = false ∧ postCommitOk (.cissue 3 1) = false
    ∧ gives (exec .mlease (endDev .done)) (fun t => recorded t .illegalOperand 2) = true := by decide +kernel

/-! YieldWords -/

theorem witness_yieldWords : (endDev .run).present = true ∧ (endDev .run).st.commit ≠ .done
    ∧ ((endDev .run).core (endDev .run).cur).inPar = false ∧ (endDev .run).st.task.disc < 4 ∧ (endDev .run).st.gang ≠ 0
    ∧ (endDev .run).gang (endDev .run).st.gang = some gang1 ∧ gang1.task.service = false
    ∧ gives (exec .yield (endDev .run)) (fun t => t.sched.recs == [gang1.task] && !(t.core 0).ord.live) = true
    ∧ gives (exec .yield (endDev .done)) (fun t => recorded t .illegalOperand 0) = true := by decide +kernel

/-- A pinned task, and a Parapet run of core 0. -/
def discDev : State := (endDev .run).modSt (fun t => { t with task := { t.task with disc := 4 } })
def runDev : State :=
  (endDev .run).modCore 0 (fun c => { c with inPar := true, par := { c.ord with gang := 2 } })
theorem witness_yieldWords_stops : discDev.present = true ∧ 4 ≤ discDev.st.task.disc ∧ runDev.present = true
    ∧ (runDev.core runDev.cur).inPar = true
    ∧ gives (exec .yield discDev) (fun t => recorded t .illegalOperand 0) = true
    ∧ gives (exec .yield (runDev.modErr (fun e => { e with ha := false, hb := false, latch := false })))
        (fun t => t.err.ha && t.err.hb && t.err.latch) = true := by decide +kernel

/-! Commits, HaltsAndLimits, StoresPerform -/

theorem witness_slots : (slot0 .opened 15 1).gang = 1 ∧ (slot0 .opened 15 1).st = .opened
    ∧ (slot0 .pending 2 1).st = .pending ∧ ({ slot0 .pending 2 1 with give := true } : Slot).give = true
    ∧ ({ slot0 .pending 2 1 with give := true } : Slot).commit 1 [] = { slot0 .free 0 0 with gen := 6 }
    ∧ ([⟨0, 127, 5⟩] : List Decr).filter (fun d => d.core == 0 && d.unit == 127 && d.gen == 5) = [⟨0, 127, 5⟩]
    ∧ 1 < (slot0 .pending 2 1).count ∧ 1 = (slot0 .sealed 1 0).count ∧ (slot0 .sealed 2 0).gang ≠ 1
    ∧ (slot0 .sealed 2 0).commit 1 [⟨0, 127, 5⟩] = slot0 .sealed 1 0 := by decide +kernel

/-- Gang 1 waits at its COMMIT with the extent of a buffer written. -/
def commitGang : Gang := { gang1 with wset := [⟨4095, 0⟩] }
def commitDev : State :=
  (pinDev (fun t => { t with commit := .drain, commitPos := 0, ev := { t.ev with pc := 8 }, em := { t.em with pc := 8 }, ec := { t.ec with pc := 8 } })).modSched
    (fun d => { d with gangs := [commitGang] })
theorem witness_commits : commitDev.shape = true ∧ commitDev.gang 1 = some commitGang ∧ commitGang.id = 1
    ∧ commitGang.committed = false ∧ (∀ m ∈ commitGang.members, m.core < 128 ∧ commitDev.memberReady m.core = true)
    ∧ (commitGang.members.map (·.core)).Nodup ∧ (commitGang.wset.map (fun w => (w.buf, w.ext))).Nodup
    ∧ commitDev.caissonFails [] (commitDev.gangDecs commitGang) = none
    ∧ gives (exec (.commitStep 1) commitDev) (fun t => t.st.commit == .done && t.st.es.pc == 4
        && (((t.ctx 0).buf 4095).map (fun b => (b.version, b.sel))) == some (9, [false])) = true := by decide +kernel

theorem witness_commits_drains : ∀ m ∈ commitGang.members, commitDev.drains m.core := by
  intro m hm l hl
  have h : ∀ m ∈ commitGang.members, ∀ l ∈ (commitDev.core m.core).l1 ++ (commitDev.cluster (clusterOf m.core)).slice,
    l.dirty ≠ 0#128 → commitDev.poisonedPa l.key = false := by decide +kernel
  exact h m hm l (List.mem_append.2 hl)

def haltedDev : State :=
  (dev [0, 0] (fun t => { t with commit := .done, halted := true, ev := { t.ev with pc := 8 }, em := { t.em with pc := 8 }, ec := { t.ec with pc := 8 } })).modSched
    (fun d => { d with gangs := [{ gang1 with committed := true }] })
theorem witness_halts : haltedDev.shape = true ∧ (haltedDev.core 0).inPar = false ∧ haltedDev.bundleReady 0 = true
    ∧ (haltedDev.core 0).ord.gang ≠ 0 ∧ haltedDev.gang 1 = some { gang1 with committed := true }
    ∧ gives (exec (.haltBundleRetire 0) haltedDev) (fun t => t.sched.gangs == [] && !(t.core 0).ord.live) = true := by
  decide +kernel

def stalledDev (n : Nat) : State := dev [0, 0] (fun t => { t with stall := n })
theorem witness_limits : ((stalledDev 0x04000000).strand 0).live = true ∧ ((stalledDev 0x04000000).core 0).inPar = false
    ∧ ((stalledDev 0x04000000).strand 0).stopped = false ∧ ((stalledDev 0x04000000).strand 0).commit ≠ .done
    ∧ (stalledDev 0x04000000).err.wdog ≤ ((stalledDev 0x04000000).strand 0).stall
    ∧ ((stalledDev 0x03FFFFFF).strand 0).stall < (stalledDev 0x03FFFFFF).err.wdog
    ∧ (haltedDev.strand 0).commit = .done
    ∧ (haltedDev.strand 0).commitAt + 512 ≤ ({ haltedDev with now := 512 } : State).now
    ∧ ({ haltedDev with now := 511 } : State).now < (haltedDev.strand 0).commitAt + 512
    ∧ gives (exec (.watchdog 0) (stalledDev 0x04000000)) (fun t => recorded t .watchdog 0) = true
    ∧ gives (exec (.postcommitLong 0) { haltedDev with now := 512 }) (fun t => recorded t .postcommitLong 0) = true := by
  decide +kernel

def store (o : Nat) : PStore := { tok := some 7, cls := 15, eng := .v, text := 0, writes := [(.spad 0 o, 1#8), (.mem 5, 2#8)] }
def storingDev : State := dev [0] (fun t => { t with psts := [store 0, store 1], regs := { t.regs with w := t.regs.w.set 7 2 } })
theorem witness_stores : storingDev.shape = true ∧ (storingDev.strand 0).shape = true
    ∧ (storingDev.strand 0).psts[1]? = some (store 1) ∧ (storingDev.strand 0).storeBehind 1 (store 1) = true
    ∧ (storingDev.strand 0).psts[0]? = some (store 0) ∧ (storingDev.strand 0).storeBehind 0 (store 0) = false
    ∧ (store 0).writes.all (storingDev.storeOk (storingDev.strand 0).gang) = true ∧ ((store 0).writes.map Prod.fst).Nodup
    ∧ gives (exec (.storePerformed 0 0) storingDev) (fun t => t.byteAt (.spad 0 0) == 1#8 && t.seen 0 5 == 2#8) = true := by
  decide +kernel

/-- A store under part of its bits, and one into a tile that is not open to the gang. -/
def partStore : PStore := { store 0 with writes := [(.spad 0 4, 0xFF#8)], part := [(.spad 0 4, 0x0F)] }
def lostStore : PStore := { store 0 with writes := [(.tile 0 (127 * 4096), 1#8)] }
def storingOne (p : PStore) : State := storingDev.modSt (fun t => { t with psts := [p] })
theorem witness_stores_part : (storingOne partStore).upsets = [] ∧ (storingOne partStore).memWf = true
    ∧ (storingOne partStore).st.storeBehind 0 partStore = false
    ∧ partStore.writes.all ((storingOne partStore).storeOk 1) = true ∧ (∀ x ∈ partStore.part, x.1 = .spad 0 4)
    ∧ lostStore.writes.all ((storingOne lostStore).storeOk 1) = false
    ∧ (storingOne lostStore).st.storeBehind 0 lostStore = false
    ∧ gives (exec (.storePerformed 0 0) (storingOne partStore)) (fun t => t.byteAt (.spad 0 4) == 0x0F#8) = true
    ∧ gives (exec (.storePerformed 0 0) (storingOne lostStore)) (fun t => recorded t .permission 1) = true := by decide +kernel

/-! FaultsTaken -/

theorem witness_faults : (endDev .run).shape = true ∧ (endDev .run).st.task.ctx < 1024
    ∧ ((endDev .run).core (endDev .run).cur).inPar = false
    ∧ (endDev .run).st.commit ≠ .done ∧ (endDev .run).gang (endDev .run).st.gang = some gang1
    ∧ gang1.task.service = false ∧ (gang1.members.any (fun m => m.core == 0 && !m.ended)) = true
    ∧ FCode.alignment ≠ .checkerMismatch ∧ FCode.alignment ≠ .memoryUe ∧ FCode.alignment ≠ .translationPoison
    ∧ recorded (takeFault { code := .alignment } (endDev .run)) .alignment 0 = true
    ∧ ((takeFault { code := .memoryUe, cause := 2 } (endDev .run)).core 0).fenced = true := by decide +kernel

/-- A fault area that lies in a withdrawn page. -/
def badArea : State := (endDev .run).modErr (fun e => { e with poisoned := [((endDev .run).ctx 0).faultBase / 4096] })
theorem witness_faults_area : badArea.shape = true ∧ badArea.poisonedPa (badArea.ctx 0).faultBase = true
    ∧ (endDev .run).poisonedPa ((endDev .run).ctx 0).faultBase = false := by decide +kernel

end Sys2Proof.Tests
end

