-- ==== Sys2Proof/Tests/WitnessE.lean ====
section
/-! SUPPORT. For each statement about the commands of the Girder and the copy engine, and about Keystone: states and operands
that meet its hypotheses. -/

set_option Elab.async false

namespace Sys2Proof.Tests

open Sys2Proof.Machine

/-- A command register from its halfwords. -/
def creg (l : List (Nat × Nat)) : Nat := (l.map (fun p => p.2 * 2 ^ (16 * p.1))).sum

/-- A number spread over four halfwords from i on. -/
def at4 (i v : Nat) : Nat × Nat := (i, v)

/-! LeasesAndMarks -/

def leaseDev (f : Strand → Strand) (g : Girder → Girder) : State :=
  (dev [0x80000000, 0x80000000] f).modCluster 0 (fun c => { c with gir := g c.gir })
def held : State := leaseDev (fun t => { t with lease := .held }) (fun g => { g with holder := some 0, owner := List.replicate 6 (some 1) })

theorem witness_leases : (leaseDev id id).able ∧ (leaseDev id id).shape = true ∧ (leaseDev id id).st.leaseAsk = false
    ∧ (leaseDev (fun t => { t with leaseAsk := true, lease := .waiting }) id).st.leaseAsk = true
    ∧ (leaseDev (fun t => { t with leaseAsk := true, lease := .held }) id).st.lease ≠ .waiting
    ∧ held.able ∧ held.st.ks.window = [] ∧ held.st.lease = .held ∧ (held.girder 0).used < 16
    ∧ (leaseDev id id).st.lease = .none ∧ yields (leaseDev id id).keyGate (fun _ => true) = true
    ∧ 16 ≤ ((leaseDev (fun t => { t with lease := .held }) (fun g => { g with queue := List.replicate 16 (.marker 1) })).girder 0).used
    ∧ gives (exec .mmark held) (fun t => (t.girder 0).queue == [.marker 0]) = true
    ∧ gives (exec .mmark (leaseDev id id)) (fun t => recorded t .lease 2) = true
    ∧ gives (exec .mlease (leaseDev id id)) (fun t => t.st.lease == .waiting) = true := by
  unfold State.able
  decide +kernel

def asking : State := leaseDev (fun t => { t with leaseAsk := true, lease := .waiting }) (fun g => { g with prev := 1 })
theorem witness_leaseGrant : asking.shape = true ∧ (asking.girder 0).fenced = false ∧ (asking.girder 0).holder = none
    ∧ (4 * 0 + ((asking.girder 0).prev + 1 + 2) % 4) = 0 ∧ (asking.strand 0).live = true
    ∧ (asking.strand 0).lease = .waiting ∧ (∀ j, j < 2 → (asking.strand (((asking.girder 0).prev + 1 + j) % 4)).live = false)
    ∧ ((leaseDev id id).strand 0).lease = .none ∧ (held.girder 0).holder = some 0 ∧ (held.girder 0).curCyc ≠ 0
    ∧ (held.girder 0).grantAt + (held.girder 0).curCyc ≤ ({ held with now := 65536 } : State).now
    ∧ held.now < (held.girder 0).grantAt + (held.girder 0).curCyc
    ∧ gives (exec (.leaseGrant 0) asking) (fun t => (t.girder 0).holder == some 0) = true
    ∧ gives (exec (.leaseLapseCycles 0) { held with now := 65536 }) (fun t => (t.strand 0).lease == .lapsed) = true := by
  decide +kernel

/-! QueuesAndPorts: the drains of M and C -/

def drainCmd (started : Bool) : GCmd := { core := 0, k := creg [(0, 5), (1, 16), (4, 6)], text := 0, started := started }
def mqDev : State := (dev [0x80000000] (fun t => setQ 1 [some 1#64, none] { t with qs := { t.qs with fq := [none, some 1#32] } })).modCluster 0
  (fun c => { c with gir := { c.gir with queue := [.cmd (drainCmd false), .marker 1] } })
theorem witness_queues_mqdrain : mqDev.able ∧ mqDev.shape = true ∧ mqDev.st.drain.length = 4 ∧ mqDev.st.ks.window = []
    ∧ mqDev.st.cancelled = false ∧ lget mqDev.st.drain 2 0 = 0 ∧ toMarker (mqDev.queue 1) = some []
    ∧ toMarker mqDev.st.qs.fq = some [some 1#32] ∧ none ∉ mqDev.queue 5 ∧ mqDev.st.qs.vmFresh = false
    ∧ (mqDev.queue 4).length < 16 ∧ (drainCmd false).core = mqDev.cur ∧ kEvs (drainCmd false).k = true
    ∧ gives (exec .mqdrain mqDev) (fun t => (t.girder 0).queue == [.marker 1] && t.st.regs.e == 6#32 && t.queue 4 == []) = true
    ∧ gives (exec .mqdrain (mqDev.modSt (fun t => setQ 5 [some 1#64, none, some 2#64] { t with qs := { t.qs with msPushed := true } })))
        (fun t => t.queue 4 == [none] && t.queue 5 == [some 2#64]) = true := by
  unfold State.able
  decide +kernel

def cqDev : State := (dev [0xC0000000] (setQ 2 [none])).modCore 0
  (fun c => { c with ldq := [{ k := creg [(0, 7), (1, 16), (4, 6)], text := 0 }] })
theorem witness_queues_cqdrain : cqDev.able ∧ lget cqDev.st.drain 3 0 = 0 ∧ toMarker (cqDev.queue 2) = some []
    ∧ gives (exec .cqdrain cqDev) (fun t => (t.core 0).ldq == [] && t.st.regs.e == 6#32) = true := by
  unfold State.able
  decide +kernel

/-! CommandRegisters -/

def popDev (q x : Nat) (f : Strand → Strand) : State := dev [0x80000000, 0xC0000000] (fun t => f (setQ q [some (BitVec.ofNat 64 x)] t))
theorem witness_commandRegisters : (popDev 1 5 id).able ∧ yields (popDev 1 5 id).keyGate (fun _ => true) = true
    ∧ (popDev 1 5 id).queue 1 = some 5#64 :: [] ∧ (popDev 2 5 id).queue 2 = some 5#64 :: []
    ∧ (popDev 2 5 id).queue 1 = [] ∧ (popDev 2 5 id).producerDone 1 = false
    ∧ (popDev 1 5 id).queue 2 = [] ∧ (popDev 1 5 id).producerDone 2 = false ∧ (popDev 2 5 id).able
    ∧ gives (exec (.msetq 3 60) (popDev 1 5 id)) (fun t => hw (t.regK 3) 60 == 5) = true
    ∧ gives (exec (.msetq 3 60) ((popDev 1 0x40200000 id).modSt (fun t =>
        { t with qs := { t.qs with src := t.qs.src.set 1 8, snk := t.qs.snk.set 1 10 } }))) (fun t => hw (t.regK 3) 60 == 2) = true
    ∧ gives (exec (.cset 3 63 9) (popDev 1 5 id)) (fun t => hw (t.regC 3) 63 == 9) = true := by
  unfold State.able
  decide +kernel

/-- A chain program of one core with factors 2 and 3: 64 bytes at offset 4032 of the own scratchpad. -/
def prog1 : Nat := 1 + 2 * 2 ^ 128 + 3 * 2 ^ 136
def orderDev (x : Nat) (opened : Bool) : State :=
  (popDev 1 (spadBase + 4032) (fun t => { t with chain := { t.chain with opened := opened } })).modCore 0
    (fun c => { c with spad := mputn c.spad 4032 64 x })
theorem witness_chains : (orderDev prog1 false).able ∧ (orderDev prog1 false).st.chain.opened = false
    ∧ (orderDev prog1 true).able ∧ (orderDev prog1 true).st.chain.opened = true
    ∧ (orderDev prog1 false).queue 1 = some (BitVec.ofNat 64 (spadBase + 4032)) :: []
    ∧ (BitVec.ofNat 64 (spadBase + 4032)).toNat = spadBase + 4032 ∧ 4032 % 16 = 0
    ∧ 4032 + (48 + 16 * (orderDev prog1 false).own 4032 1) ≤ (orderDev prog1 false).st.allot
    ∧ progOk ((orderDev prog1 false).own 4032 64) = true ∧ progOk ((orderDev (prog1 + 2 ^ 8) false).own 4032 64) = false
    ∧ gives (exec .morder (orderDev prog1 false)) (fun t => t.st.chain.prog == some prog1) = true
    ∧ gives (exec (.mbond 15 7) (orderDev prog1 true)) (fun t => recorded t .illegalOperand 2) = true := by
  unfold State.able
  decide +kernel

/-! CommandIssue: ACCZ of bank 3, rows 0 to 255; a CHAIN step of the program above; and what fails. -/

def kReg (k : Nat) (s : State) : State :=
  s.modSt (fun t => { t with regs := { t.regs with km := t.regs.km.set 3 (BitVec.ofNat 1024 k) } })
def accz : Nat := creg [(0, 5), (1, 8 + 7), (15, 256), (53, 3)]
theorem witness_commandIssue : (kReg accz held).able ∧ (kReg accz held).shape = true
    ∧ yields (kReg accz held).keyGate (fun _ => true) = true ∧ (kReg accz held).st.lease = .held
    ∧ ((kReg accz held).girder 0).holder = some 0 ∧ ((kReg accz held).girder 0).used < 16
    ∧ popsFq accz = false ∧ popsVm accz = false
    ∧ missueEnc accz 0 = true ∧ kKind accz ≠ 3 ∧ (kReg accz held).missueFields accz 0 = true
    ∧ yields ((kReg accz held).gCheck false (gRanges accz 0)) (fun _ => true) = true
    ∧ (kTv accz = true ∧ (kReg accz held).st.tokCount (kTok accz) < 63)
    ∧ missueEnc 7 0 = false ∧ missueEnc 5 0 = true ∧ (kReg 5 held).missueFields 5 0 = false
    ∧ gives (exec (.missue 3 0) (kReg accz held)) (fun t => (t.girder 0).used == 1 && t.st.tokCount 7 == 1) = true
    ∧ gives (exec (.missue 3 0) (kReg 7 held)) (fun t => recorded t .illegalEncoding 2) = true
    ∧ gives (exec (.missue 3 0) (kReg 5 held)) (fun t => recorded t .commandField 2) = true := by
  unfold State.able
  decide +kernel

/-- The program with its core array at the start of the own scratchpad, and a CHAIN of a batch of n. -/
def prog2 : Nat := prog1 + spadBase * 2 ^ (8 * 56)
def chainReg (n : Nat) : Nat := creg [(0, 3), (14, n), (21, 2), (53, 0)] + spadBase * 2 ^ 96
def chainDev (n : Nat) (prog : Option Nat) : State :=
  kReg (chainReg n) (held.modSt (fun t => { t with chain := { t.chain with prog := prog }
                                                   regs := { t.regs with bd := t.regs.bd.map (fun _ => 1#16) }
                                                   qs := { t.qs with fq := [some 0#32] } }))
theorem witness_chainIssue : (chainDev 4 (some prog2)).able ∧ popsFq (chainReg 4) = true
    ∧ (chainDev 4 (some prog2)).st.qs.fq = some 0#32 :: []
    ∧ missueEnc (chainReg 4) 0 = true ∧ kKind (chainReg 4) = 3 ∧ ((chainDev 4 (some prog2)).chainNow (chainReg 4)).isSome = true
    ∧ (((chainDev 4 (some prog2)).chainNow (chainReg 4)).map (fun c => decide (c.count ≤ 65536))) = some true
    ∧ (((chainDev 65535 (some prog2)).chainNow (chainReg 65535)).map (fun c => decide (65536 < c.count))) = some true
    ∧ (chainDev 4 (some prog2)).missueFields (chainReg 4) 0 = true
    ∧ (((chainDev 4 (some prog2)).chainNow (chainReg 4)).map (fun c => (chainDev 4 (some prog2)).chainOk (chainReg 4) 0 c)) = some true
    ∧ (((chainDev 0 (some prog2)).chainNow (chainReg 0)).map (fun c => (chainDev 0 (some prog2)).chainOk (chainReg 0) 0 c)) = some false
    ∧ (((chainDev 4 (some prog2)).chainNow (chainReg 4)).map (fun c =>
        yields ((chainDev 4 (some prog2)).gCheck false (chainRanges (chainReg 4) 0 c)) (fun _ => true))) = some true
    ∧ (chainDev 4 none).st.chain.prog = none
    ∧ gives (exec (.missue 3 0) (chainDev 4 (some prog2))) (fun t => (t.girder 0).used == 1) = true
    ∧ gives (exec (.missue 3 0) (chainDev 65535 (some prog2))) (fun t => recorded t .boundaryOverflow 2) = true
    ∧ gives (exec (.missue 3 0) (chainDev 4 none)) (fun t => recorded t .commandField 2) = true := by
  unfold State.able
  decide +kernel

/-! CopyIssue: a FILL of 16 bytes; a multicast FILL; a WSTORE is not allowed to this task. -/

def cReg (k : Nat) (s : State) : State :=
  s.modSt (fun t => { t with regs := { t.regs with kc := t.regs.kc.set 3 (BitVec.ofNat 1024 k) } })
def fill16 : Nat := creg [(0, 7), (1, 8 + 7), (14, 16), (15, 1), (16, 1), (17, 1), (18, 1), (53, 0xAB)] + (spadBase + 4080) * 2 ^ 160
def multi16 : Nat := fill16 + (peerBase - spadBase) * 2 ^ 160 + 0xFFF * 2 ^ (16 * 43)
def cDev (k : Nat) : State := cReg k (dev [0xC0000000] id)
theorem witness_copyIssue : (cDev fill16).able ∧ (cDev fill16).shape = true ∧ cissueEnc fill16 = true ∧ cissueEnc 9 = false
    ∧ (cDev fill16).cissueFields fill16 = true ∧ cissueEnc 7 = true ∧ (cDev 7).cissueFields 7 = false
    ∧ yields ((cDev fill16).srcChecks (issueSpans fill16)) (fun _ => true) = true ∧ isMulti fill16 = false
    ∧ yields ((cDev fill16).rangeCheck (dstSpan fill16) 1 .wr false false) (fun _ => true) = true
    ∧ isMulti multi16 = true ∧ cissueEnc multi16 = true ∧ (cDev multi16).cissueFields multi16 = true
    ∧ yields ((cDev multi16).srcChecks (issueSpans multi16)) (fun _ => true) = true ∧ (cDev multi16).mcastOk multi16 = false
    ∧ (((cDev fill16).core 0).cq 1).length < 16 ∧ (kTv fill16 = true ∧ (cDev fill16).st.tokCount (kTok fill16) < 63)
    ∧ gives (exec (.cissue 3 1) (cDev fill16)) (fun t => ((t.core 0).cq 1).length == 1 && t.st.tokCount 7 == 1) = true
    ∧ gives (exec (.cissue 3 1) (cDev 9)) (fun t => recorded t .illegalEncoding 3) = true
    ∧ gives (exec (.cissue 3 1) (cDev 7)) (fun t => recorded t .commandField 3) = true
    ∧ gives (exec (.cissue 3 1) (cDev multi16)) (fun t => recorded t .scratchBounds 3) = true := by
  unfold State.able
  decide +kernel

theorem witness_copyIssue_full :
    16 ≤ ((((cDev fill16).modCore 0 (fun c => { c with stq := List.replicate 16 { k := fill16, text := 0 } })).core 0).cq 1).length := by
  decide +kernel

def ccodeDev (b : Byte) : State := (popDev 2 (spadBase + 3968) id).modCore 0 (fun c => { c with spad := if b = 0#8 then [] else [(3968, b)] })
theorem witness_copyIssue_ccode : (ccodeDev 1#8).able ∧ (ccodeDev 1#8).queue 2 = some (BitVec.ofNat 64 (spadBase + 3968)) :: []
    ∧ 3968 % 8 = 0 ∧ 3968 + 128 ≤ (ccodeDev 1#8).st.allot ∧ 3968 + 128 ≤ (ccodeDev 1#8).carveBase 0
    ∧ 15 < (ccodeDev 1#8).st.codeTab.length ∧ (∀ c ∈ ((ccodeDev 1#8).core 0).ldq ++ ((ccodeDev 1#8).core 0).stq, kKind c.k ≠ 2)
    ∧ (codeTable (mgets ((ccodeDev 1#8).core 0).spad 3968 128)).isSome = true
    ∧ codeTable (mgets ((ccodeDev 0#8).core 0).spad 3968 128) = none
    ∧ gives (exec (.ccode 15) (ccodeDev 0#8)) (fun t => recorded t .illegalOperand 3) = true := by
  unfold State.able
  decide +kernel

def cmlDev (src : Nat) : State := popDev 2 (spadBase + 4080 + 2 ^ 48) (fun t => { t with task := { t.task with src := src, layers := 1 } })
theorem witness_copyIssue_cmlist : (cmlDev 2).able ∧ fld (spadBase + 4080 + 2 ^ 48) 0 48 = spadBase + 4080 ∧ 4080 % 8 = 0
    ∧ 4080 + 8 + 4 * fld (spadBase + 4080 + 2 ^ 48) 48 16 ≤ (cmlDev 2).st.allot ∧ fld (spadBase + 4080 + 2 ^ 48) 48 16 ≠ 0
    ∧ 0 < (cmlDev 2).st.task.layers ∧ (cmlDev 2).st.cml.length < 4 ∧ (cmlDev 2).st.tokCount 7 < 63
    ∧ (cmlDev 2).st.task.src = 2 ∧ (cmlDev 1).able ∧ (cmlDev 1).st.task.src < 2
    ∧ gives (exec (.cmlist 0 7) (cmlDev 2)) (fun t => t.st.cml.length == 1) = true
    ∧ gives (exec (.cmlist 0 7) (cmlDev 1)) (fun t => recorded t .illegalOperand 3) = true := by
  unfold State.able
  decide +kernel

def strm (decs : List LayerDec) : Stream := { ctx := 0, decs := decs }
def listDev (decs : List LayerDec) : State :=
  { (cmlDev 2).modStrand 0 (fun t => { t with cml := [{ layer := 0, tok := 7, dst := spadBase + 64 + 2 ^ 48, frame := 3 }] }) with
    streams := [(5, strm decs)] }.modSched (fun d => { d with ctxs := lmod d.ctxs 0 (fun c => { c with stream := some 5 }) })
theorem witness_copyIssue_listWrite : 0 < (listDev []).cores.length ∧ ((listDev []).strand 0).cml[0]?.isSome = true
    ∧ (listDev []).streamOf 0 = some (5, strm []) ∧ (strm []).decOf 0 3 = none
    ∧ ((strm [{ layer := 0, frame := 3, tiles := [] }]).decOf 0 3).isSome = true
    ∧ gives (exec (.cmlistListWrite 0 0) (listDev [{ layer := 0, frame := 3, tiles := [] }])) (fun t => (t.strand 0).cml == []) = true := by
  decide +kernel

/-! KeystoneWords: a rule that takes MNOP for TZERO t7. -/

def rule0 : Nat := 1 + 2 ^ 8 + 0x80000000 * 2 ^ 64 + 0xFFFFFFFF * 2 ^ 192 + 0x82E00000 * 2 ^ 320
def keyDev (rules : List Nat) (x : Nat) (f : Strand → Strand) : State :=
  (dev [0x80000000, 0x80000000] (fun t => f (setQ 1 [some (BitVec.ofNat 64 x)] t))).modCore 0
    (fun c => { c with imem := [{ img [0x80000000, 0x80000000] with rules := rules }] })
theorem witness_kload : ruleOk rule0 = true ∧ ruleOk 0 = false ∧ (keyDev [rule0] (256 + 63 * 65536) id).able
    ∧ (keyDev [rule0] (256 + 63 * 65536) id).st.ks.window = []
    ∧ (keyDev [rule0] (256 + 63 * 65536) id).queue 1 = some (BitVec.ofNat 64 (256 + 63 * 65536)) :: []
    ∧ (keyDev [rule0] 0 id).st.ks.slots.length = 64
    ∧ fld (256 + 63 * 65536) 22 42 = 0 ∧ fld (256 + 63 * 65536) 8 8 = 1 ∧ fld (256 + 63 * 65536) 16 6 + 1 ≤ 64
    ∧ fld (256 + 63 * 65536) 0 8 + 1 ≤ ((keyDev [rule0] 0 id).image 0).rules.length
    ∧ gives (exec .kload (keyDev [rule0] (256 + 63 * 65536) id)) (fun t => lget t.st.ks.slots 63 none == some rule0) = true
    ∧ gives (exec .kload (keyDev [0] (256 + 63 * 65536) id)) (fun t => recorded t .keystoneRule 2) = true
    ∧ gives (exec .kload (keyDev [] (256 + 63 * 65536) id)) (fun t => recorded t .illegalOperand 2) = true
    ∧ gives (exec (.kperm 1 1) (keyDev [] 0 id)) (fun t => t.st.ks.pf && t.st.ks.pr) = true := by
  unfold State.able
  decide +kernel

def keyRun (w : List KWord) : State :=
  keyDev [rule0] 0 (fun t => { t with ks := { t.ks with slots := t.ks.slots.set 63 (some rule0), window := w } })
def kword (i : Instr) : KWord := { ins := i, off := 0, kslot := 63, kpos := 0 }
/-- Keystone takes the group of slot 63, whose words the slip bound lets it take. -/
def taken0 (s : State) : Bool :=
  match s.keyDecide with
  | .take g => g.reps == [0x82E00000] && g.slot == 63 && (match s.slipLimit 0 .m with
    | some n => decide (((g.ahead.getLast?.map (·.after)).getD s.st.em).walk ≤ n)
    | none => true)
  | _ => false
theorem witness_keystoneRewrite : (keyRun []).shape = true ∧ (keyRun []).mayAct 0 .m = true ∧ (keyRun []).st.ks.window = []
    ∧ (keyRun []).st.commit ≠ .done ∧ (keyRun []).st.beyond .m ((ownFrom ((keyRun []).text 0) .m (keyRun []).st.em.pc).getD (keyRun []).st.em.pc) = false
    ∧ taken0 (keyRun []) = true
    ∧ decodeWord 0x82E00000 = .ok (.tzero 7)
    ∧ (keyRun [kword (.tzero 7)]).mayAct 0 .m = true ∧ (keyRun [kword (.tzero 7)]).st.ks.window = kword (.tzero 7) :: []
    ∧ yields (keyWord (kword (.tzero 7)) (keyRun [kword (.tzero 7)])) (fun _ => true) = true
    ∧ faults (keyWord (kword (.missue 3 0)) (keyRun [kword (.missue 3 0)])) .lease = true
    ∧ (keyRun []).st.ended = false
    ∧ gives (exec (.keystoneRewrite 0) (keyRun [])) (fun t => (t.st.ks.window.map (·.ins)) == [.tzero 7] && t.st.ks.applied == 1) = true
    ∧ gives (exec (.keystoneRewrite 0) (keyRun [kword (.tzero 7)])) (fun t => t.st.ks.window == []) = true := by
  decide +kernel

/-! CopyPayloads, Completions -/

def copyReg (kind : Nat) (l : List (Nat × Nat)) (src dst : Nat) : Nat :=
  creg ([(0, kind), (14, 16), (15, 1), (16, 1), (17, 1), (18, 1)] ++ l) + src * 2 ^ 96 + dst * 2 ^ 160
def copyDev (k : Nat) (l : List CCmd) : State :=
  (dev [0] id).modCore 0 (fun c => { c with spad := [(0, 7#8), (15, 9#8)], stq := l ++ [{ k := k, text := 8 }] })
def copy16 : Nat := copyReg 1 [(53, 0xFF)] spadBase (spadBase + 4080)
theorem witness_copyPayloads : (copyDev copy16 []).shape = true ∧ (copyDev copy16 []).upsets = []
    ∧ (copyDev copy16 []).copyNext 0 1 [] { k := copy16, text := 8 } [] ∧ kKind copy16 = 1
    ∧ kCount copy16 0 = 16 ∧ nestCounts copy16 = [1, 1, 1, 1] ∧ isMulti copy16 = false ∧ kBit0 copy16 = false
    ∧ cTypes copy16 = none ∧ kSrc copy16 = spadBase + 0 ∧ kDst copy16 = spadBase + 4080
    ∧ (copyDev copy16 []).ownRange 0 4080 16 ∧ (copyDev copy16 []).ownRange 0 0 16 ∧ 0 + 16 ≤ 4080
    ∧ yields (({ copyDev copy16 [] with cur := 0 } : State).runCopy { k := copy16, text := 8 } 0) (fun x => x.1 == 16) = true
    ∧ gives (exec (.copy 0 1) (copyDev copy16 [])) (fun t => ((t.core 0).cq 1).map (·.bytes) == [16]) = true := by
  unfold State.copyNext State.ownRange
  decide +kernel

/-- A command behind one that has moved its payload; a nest of two runs of 16 bytes, 32 bytes apart; and 16 bytes of e4m3
converted to fp32. -/
def moved0 : CCmd := { k := copy16, text := 4, started := true, done := true, bytes := 16 }
def nest2 : Nat := copyReg 1 [(15, 1), (53, 0xFF), (21, 32), (31, 32)] spadBase (spadBase + 2048)
def conv16 : Nat := copyReg 1 [(53, 4 + 8 * 16)] spadBase (spadBase + 2048)
theorem witness_copyPayloads_nests : (copyDev nest2 [moved0]).shape = true
    ∧ (copyDev nest2 [moved0]).copyNext 0 1 [moved0] { k := nest2, text := 8 } []
    ∧ kBit0 nest2 = false ∧ cTypes nest2 = none ∧ kCount nest2 0 = 16 ∧ nestRuns nest2 = 2
    ∧ (∀ i, i < 2 → srcAt nest2 i = spadBase + 32 * i ∧ dstAt nest2 i = spadBase + (2048 + 32 * i)
      ∧ (copyDev nest2 [moved0]).ownRange 0 (32 * i) 16 ∧ (copyDev nest2 [moved0]).ownRange 0 (2048 + 32 * i) 16)
    ∧ (∀ i, i < 2 → ∀ j, j < 2 → (32 * i + 16 ≤ 2048 + 32 * j) ∧ (i ≠ j → 2048 + 32 * i + 16 ≤ 2048 + 32 * j
      ∨ 2048 + 32 * j + 16 ≤ 2048 + 32 * i))
    ∧ gives (exec (.copy 0 1) (copyDev nest2 [moved0])) (fun t => ((t.core 0).cq 1).map (·.bytes) == [16, 32]) = true := by
  unfold State.copyNext State.ownRange
  decide +kernel
theorem witness_copyPayloads_conv : (copyDev conv16 []).copyNext 0 1 [] { k := conv16, text := 8 } []
    ∧ cTypes conv16 = some (4, 8) ∧ 8 ≤ qWidth 4 ∧ 8 ≤ qWidth 8 ∧ nestCounts conv16 = [1, 1, 1, 1] ∧ kBit0 conv16 = false
    ∧ (copyDev conv16 []).ownRange 0 0 16 ∧ (copyDev conv16 []).ownRange 0 2048 (16 / (qWidth 4 / 8) * (qWidth 8 / 8)) ∧ 0 + 16 ≤ 2048
    ∧ gives (exec (.copy 0 1) (copyDev conv16 [])) (fun t =>
        ((t.core 0).cq 1).map (·.bytes) == [16 / (qWidth 4 / 8) * (qWidth 8 / 8)]) = true := by
  unfold State.copyNext State.ownRange
  decide +kernel

def fillEnd : Nat := copyReg 7 [(53, 0xAB), (57, 0)] 0 (spadBase + 4080)
def wst16 : Nat := copyReg 8 [] spadBase (wstBase + 0x9FFFFF0)
theorem witness_copyPayloads_others : kKind fillEnd = 7 ∧ fillOk fillEnd = true ∧ kDst fillEnd = spadBase + 4080
    ∧ kKind wst16 = 8 ∧ kDst wst16 = wstBase + 0x9FFFFF0 ∧ 0x9FFFFF0 + 16 ≤ 0xA000000 ∧ kSrc wst16 = spadBase + 0
    ∧ gives (exec (.fill 0 1) (copyDev fillEnd [])) (fun t => t.byteAt (.spad 0 4080) == 0xAB#8) = true
    ∧ gives (exec (.wstore 0 1) (copyDev wst16 [])) (fun t => ((t.core 0).cq 1).map (·.bytes) == [16]) = true := by decide +kernel

/-- One page of 256 bytes: the index 2 at 512, its entry of a table at 1024, the page at 2048 to 3072. -/
def pgath1 : Nat :=
  creg [(0, 6), (14, 1), (15, 1), (16, 1), (17, 1), (18, 1), (53, 0), (54, 3)] + (spadBase + 512) * 2 ^ 96
    + (spadBase + 3072) * 2 ^ 160 + (spadBase + 1024) * 2 ^ 624
def pgathDev : State := (copyDev pgath1 []).modCore 0 (fun c =>
  { c with spad := mputn (mputn (mputn [] 512 4 2) 1040 8 (2 ^ 63 + spadBase + 2048)) 2303 1 5 })
theorem witness_pgath : kKind pgath1 = 6 ∧ kCount pgath1 0 = 1 ∧ nestCounts pgath1 = [1, 1, 1, 1] ∧ kSrc pgath1 = spadBase + 512
    ∧ mnat (pgathDev.core 0).spad 512 4 = 2 ∧ 2 < pgLen pgath1 ∧ kAux pgath1 = spadBase + 1024
    ∧ mnat (pgathDev.core 0).spad 1040 8 = 2 ^ 63 + (spadBase + 2048) ∧ (spadBase + 2048) % pgSize pgath1 = 0
    ∧ kDst pgath1 = spadBase + 3072 ∧ pgathDev.ownRange 0 3072 (pgSize pgath1) ∧ pgathDev.ownRange 0 2048 (pgSize pgath1)
    ∧ pgathDev.ownRange 0 (1024 + 8 * 2) 8 ∧ pgathDev.ownRange 0 512 4 ∧ 2048 + pgSize pgath1 ≤ 3072
    ∧ pgathDev.copyNext 0 1 [] { k := pgath1, text := 8 } []
    ∧ gives (exec (.pgath 0 1) pgathDev) (fun t => ((t.core 0).cq 1).map (·.bytes) == [256]) = true := by
  unfold State.copyNext State.ownRange
  decide +kernel

/-- A stream of one code word 1 of a table of two symbols of one bit, at 512. -/
def copyz1 : Nat := creg [(0, 2), (14, 1), (15, 1), (16, 1), (17, 1), (18, 1)] + (spadBase + 512) * 2 ^ 96 + (spadBase + 4080) * 2 ^ 160
def copyzDev : State := ((copyDev copyz1 []).modCore 0 (fun c =>
  { c with spad := mputn (mputn [] 512 8 (1 + 2 ^ 32 * 15)) 520 1 1 })).modStrand 0 (fun t => { t with codeTab := t.codeTab.set 15 (some [1, 1]) })
theorem witness_copyz : kKind copyz1 = 2 ∧ kBit0 copyz1 = false ∧ kSrc copyz1 = spadBase + 512 ∧ kCount copyz1 0 = 1
    ∧ isMulti copyz1 = false ∧ nestCounts copyz1 = [1, 1, 1, 1] ∧ 15 < 16
    ∧ copyzDev.copyNext 0 1 [] { k := copyz1, text := 8 } [] ∧ copyzDev.ownRange 0 512 (8 + 2 * 1) ∧ 512 + 8 + 2 * 1 ≤ 4080
    ∧ mnat (copyzDev.core 0).spad 512 8 = 1 + 2 ^ 32 * 15 ∧ lget (copyzDev.strand 0).codeTab 15 none = some [1, 1]
    ∧ codeSym [1, 1] 1 (streamBits (copyzDev.core 0).spad 520 0 1) = some 1 ∧ [1].length = 1
    ∧ kDst copyz1 = spadBase + 4080 ∧ copyzDev.ownRange 0 4080 1
    ∧ gives (exec (.copyz 0 1) copyzDev) (fun t => ((t.core 0).cq 1).map (·.bytes) == [1]) = true := by
  unfold State.copyNext State.ownRange
  decide +kernel
theorem witness_copyz_stream : streamIs (copyzDev.core 0).spad 520 [1, 1] [1] 0 :=
  ⟨1, by decide, by decide +kernel, by decide, fun j h1 h2 => absurd h2 (by omega), trivial⟩

/-- A SCATL of one entry onto a map of one pixel of one byte. -/
def scatl1 : Nat := creg [(0, 4), (53, 1), (54, 1), (55, 1), (56, 1), (57, 1)] + (spadBase + 512) * 2 ^ 96
  + (spadBase + 4080) * 2 ^ 160 + spadBase * 2 ^ 624
def scatlDev : State := (copyDev scatl1 []).modCore 0 (fun c => { c with spad := [(512, 5#8)] })
theorem witness_lists : kKind scatl1 = 4 ∧ isMulti scatl1 = false ∧ kAux scatl1 = spadBase + 0 ∧ lE scatl1 = 1 ∧ lP scatl1 = 1
    ∧ scatlDev.copyNext 0 1 [] { k := scatl1, text := 8 } [] ∧ scatlDev.ownRange 0 0 4 ∧ scatlDev.ownRange 0 512 1
    ∧ entryOk scatl1 (mnat (scatlDev.core 0).spad 0 4) = true
    ∧ listMoves scatl1 (fun e => mnat (scatlDev.core 0).spad (4 * e) 4) = [(some (spadBase + 512), spadBase + 4080)]
    ∧ 0 + 4 ≤ 4080 ∧ scatlDev.ownRange 0 4080 1 ∧ 512 + 1 ≤ 4080
    ∧ gives (exec (.scatl 0 1) scatlDev) (fun t => ((t.core 0).cq 1).map (·.bytes) == [1]) = true := by
  unfold State.copyNext State.ownRange
  decide +kernel

/-- A COPY whose source lies beyond the allotment, as it stands once its strand has moved on. -/
def copyBad : Nat := copyReg 1 [(53, 0xFF)] (spadBase + 8192) spadBase
theorem witness_copyPayloads_fault : faults (({ copyDev copyBad [] with cur := 0 } : State).runCopy { k := copyBad, text := 8 } 0) .scratchBounds = true
    ∧ gives (exec (.copy 0 1) (copyDev copyBad [])) (fun t => recorded t .scratchBounds 5) = true := by decide +kernel

/-- Token 7, event bits 6, a signal word early at 8, a barrier to subtract from at 64. -/
def doneReg : Nat := creg [(0, 7 + 0x8000), (1, 8 + 7 + 16 + 32 + 64), (4, 6), (45, 1), (46, 4), (47, 5)]
def doneAt (done : Bool) (a : Nat) : State := ((copyDev 0 []).modCore 0 (fun c =>
  { c with stq := [{ k := doneReg, text := 0, started := true, done := done, bytes := 16, acted := a }] })).modStrand 0 (fun t =>
    { t with regs := { t.regs with w := t.regs.w.set 7 1 } })
def doneDev (done : Bool) : State := doneAt done 0
theorem witness_completions_acted : (doneAt true 2).upsets = []
    ∧ gives (exec (.commandCompletion (.copy 0 1)) (doneAt true 2)) (fun t => (t.strand 0).regs.e == 6#32
        && (t.strand 0).tokCount 7 == 0 && t.byteAt (.spad 0 8) == 0#8) = true := by decide +kernel
theorem witness_completions : (doneDev true).shape = true
    ∧ ((doneDev true).core 0).cq 1 = { k := doneReg, text := 0, started := true, done := true, bytes := 16 } :: []
    ∧ ((doneDev false).core 0).cq 1 = { k := doneReg, text := 0, started := true, done := false, bytes := 16 } :: []
    ∧ kSgw doneReg = true ∧ kEarly doneReg = true ∧ kBsub doneReg = true ∧ kEvs doneReg = true
    ∧ gives (exec (.commandCompletion (.copy 0 1)) (doneDev true)) (fun t => (t.strand 0).regs.e == 6#32
        && (t.strand 0).tokCount 7 == 0 && t.byteAt (.spad 0 8) == 5#8) = true := by decide +kernel

/-! GirderPayloads, GirderResults -/

def girDev (c : GCmd) (f : Girder → Girder) : State :=
  (dev [0x80000000] id).modCluster 0 (fun x => { x with gir := f { x.gir with queue := [.cmd c] } })
def accz1 : GCmd := { core := 0, k := creg [(0, 5), (15, 256), (53, 3)], text := 4 }
theorem witness_accz : (girDev accz1 id).shape = true ∧ (girDev accz1 id).upsets = []
    ∧ ((girDev accz1 id).girder 0).queue = ([] : List GCmd).map .cmd ++ .cmd accz1 :: []
    ∧ (girDev accz1 id).gReady accz1 = true ∧ ((girDev accz1 id).girder 0).fenced = false ∧ kKind accz1.k = 5
    ∧ ((girDev accz1 id).girder 0).banks.length = 4
    ∧ yields ((girDev accz1 id).runCmd 0 accz1 false (((girDev accz1 id).girder 0).buf (gSB accz1.k))) (fun _ => true) = true
    ∧ gives (exec (.accz 0) (girDev accz1 (fun g => { g with banks := g.banks.set 3 [(0, 5#8)] })))
        (fun t => lget (t.girder 0).banks 3 [(1, 1#8)] == []) = true := by decide +kernel

/-- A WLOAD of 2 rows of 2 bytes; a GEMM of one bf16 row of depth 1 by one column from the buffer it fills. -/
def wload1 : GCmd := { core := 0, k := creg [(0, 6), (14, 2), (15, 2), (21, 2), (53, 0), (55, 1)] + spadBase * 2 ^ 96 + spadBase * 2 ^ 624, text := 0 }
theorem witness_wload : kKind wload1.k = 6 ∧ 1 ≤ wRows wload1.k ∧ 1 ≤ wRowBytes wload1.k ∧ kSrc wload1.k = spadBase + 0
    ∧ kSS wload1.k 1 = 2 ∧ (wRows wload1.k - 1) * 2 + wRowBytes wload1.k ≤ ((girDev wload1 id).strand 0).allot
    ∧ kAux wload1.k = spadBase + 0 ∧ 2 * (wNB wload1.k * wCols wload1.k) ≤ ((girDev wload1 id).strand 0).allot
    ∧ ((girDev wload1 id).girder 0).sbs.length = 2 ∧ ((girDev wload1 id).girder 0).sbScale.length = 2 ∧ ((girDev wload1 id).girder 0).sbLoad.length = 2
    ∧ gives (exec (.wload 0) ((girDev wload1 id).modCore 0 (fun c => { c with spad := [(3, 9#8)] })))
        (fun t => mget ((t.girder 0).buf 0).bytes 3 == 9#8) = true := by decide +kernel

def gemm1 : GCmd := { core := 0, k := creg [(0, 1), (14, 1), (15, 1), (53, 4), (54, 1)] + spadBase * 2 ^ 96, text := 0, fmt := 4 + 4 * 16, mig := true }
def gemmDev : State := (girDev gemm1 (fun g => { g with sbs := g.sbs.set 0 [(0, 0x80#8), (1, 0x3F#8)], sbLoad := [some wload1, none] })).modCore 0
  (fun c => { c with spad := [(1, 0x40#8)] })
theorem witness_gemm : kKind gemm1.k = 1 ∧ fASM gemm1.fmt = 0 ∧ fBSM gemm1.fmt = 0 ∧ gRow gemm1.k + gM gemm1.k ≤ 256
    ∧ gN gemm1.k ≤ 256 ∧ gK gemm1.k = 1 ∧ aPlace gemm1 0 0 = (((spadBase : Nat) : Int), 0) ∧ halfBytes (fAT gemm1.fmt) = 4
    ∧ gemmDev.shape = true ∧ (gemmDev.girder 0).banks.length = 4
    ∧ gives (exec (.gemm 0) gemmDev) (fun t => bankGet (lget (t.girder 0).banks 0 []) 0 0 == 0x40000000) = true := by
  decide +kernel

/-- A fault that replays nothing: the operand of gemm1 beyond the allotment, or an error where the window has run again. -/
def replayed : State := (girDev gemm1 (fun g => { g with replayed := [(0, 0)] }))
theorem witness_girder_faults : replayed.mayReplay 0 gemm1 = false ∧ gemm1.kslot = none ∧ FCode.permission ≠ .memoryUe
    ∧ gives (exec (.gemm 0) ((girDev { gemm1 with k := gemm1.k + 8192 * 2 ^ 96 } id).modStrand 0 (fun t => { t with allot := 0 })))
        (fun t => recorded t .scratchBounds 4) = true := by decide +kernel

/-- A chain step of one element: core and input 2.0 at the start of the own scratchpad. -/
def step1 : ChStep :=
  { step := 0, mode := 0, core := 0, ik := 1, ok := 1, below := 1, bt := 1, pin := 1, poutOld := 1, dlOld := 1, drOld := 1
    dlK := 1, drK := 1, src := 0, dst := 3, addr := spadBase, scale := 0 }
def chain1 : GCmd := { core := 0, k := creg [(0, 3), (14, 1)] + spadBase * 2 ^ 96, text := 0, fmt := 4 + 4 * 16, ch := some step1 }
def chainRun : State := (girDev chain1 id).modCore 0 (fun c => { c with spad := [(1, 0x40#8)] })
theorem witness_chainRun : kKind chain1.k = 3 ∧ chain1.ch = some step1 ∧ (chainRun.girder 0).banks.length = 4 ∧ step1.dst < 4
    ∧ step1.addr = spadBase + 0 ∧ step1.coreElems = 1 ∧ halfBytes (fBT chain1.fmt) = 4 ∧ 0 + 2 ≤ (chainRun.strand 0).allot
    ∧ (kSrc chain1.k : Int) + (0 : Nat) * kSS chain1.k 1 = ((spadBase + 0 : Nat) : Int) ∧ fASM chain1.fmt = 0
    ∧ gives (exec (.chain 0) chainRun) (fun t => bankGet (lget (t.girder 0).banks 3 []) 0 0 == 0x40800000) = true := by
  decide +kernel

theorem witness_migration : gemm1.mig = true ∧ (gemmDev.girder 0).migWait ≠ 0
    ∧ gemm1.since + (gemmDev.girder 0).migWait ≤ ({ gemmDev with now := 8192 } : State).now
    ∧ ({ gemmDev with now := 8192 } : State).migTarget 0 1 = true ∧ lget (gemmDev.girder 0).sbLoad (gSB gemm1.k) none = some wload1
    ∧ yields (({ gemmDev with now := 8192 } : State).loadBuf wload1) (fun x =>
        yields (x.2.runGemm 0 gemm1 x.1 true) (fun _ => true)) = true
    ∧ gemmDev.now < gemm1.since + (gemmDev.girder 0).migWait ∧ stackOf 31 ≠ stackOf 0 := by decide +kernel

def accrd1 : GCmd := { core := 0, k := creg [(0, 4), (14, 1), (15, 1), (31, 4), (53, 4)] + spadBase * 2 ^ 160, text := 0, fmt := 8 * 256 }
theorem witness_accrd : kKind accrd1.k = 4 ∧ fRT accrd1.fmt = 8 ∧ fASM accrd1.fmt = 0 ∧ gAct accrd1.k = 0 ∧ gBias accrd1.k = false
    ∧ gZmc accrd1.k = false ∧ gDelta accrd1.k = false ∧ 1 ≤ kCount accrd1.k 1 ∧ gN accrd1.k = 1 ∧ kDst accrd1.k = spadBase + 0
    ∧ kDS accrd1.k 1 = 4
    ∧ gives (exec (.accrd 0) (girDev accrd1 (fun g => { g with banks := g.banks.set 0 [(0, 5#8)] })))
        (fun t => t.byteAt (.spad 0 0) == 5#8) = true := by decide +kernel

end Sys2Proof.Tests
end

