-- ==== Sys2Proof/Tests/WitnessF.lean ====
section
/-! SUPPORT. States and operands that meet the hypotheses of the obligations LaunchRecords to StructureInvariant, clause by
clause, with what a step there gives. -/

set_option Elab.async false

namespace Sys2Proof.Tests

open Sys2Proof.Machine

/-! LaunchRecords -/

/-- After reset, with image 1 registered for context 0, counters 0 to 3 in its range, and a record at physical 64. -/
def launchDev (r : Nat) (d : Sched → Sched) : State :=
  { State.reset.modSched (fun x => d { x with
      images := [img [0]], ctxs := lmod x.ctxs 0 (fun c => { c with dcnt := 4, qcap := 8 }) }) with
    home := mputn [] 64 64 r }

/-- record0 with a dependence on counter 3 of 65,535, and the decrement of counter 3 by 65,535. -/
def recordDep : Nat := record0 + 3 * 2 ^ 96 + 2 ^ 111 + 65535 * 2 ^ 112
def recordSub : Nat := 2 + 3 * 2 ^ 96 + 2 ^ 111 + 65535 * 2 ^ 112

theorem witness_launchRecords : (17 : Nat) ≤ 17 ∧ (launchDev record0 id).power.ready = true
    ∧ (launchDev record0 id).host.lmbx.length = 18 ∧ fld 64 48 16 = 0 ∧ 64 % 64 = 0
    ∧ lget (launchDev record0 id).host.lmbx 17 none = none
    ∧ mnat (launchDev recordDep id).home 64 64 = recordDep ∧ (launchDev record0 id).recordOk record0 0 true = true
    ∧ (launchDev record0 id).recordOk recordDep 0 false = true ∧ lrKind recordDep = 1 ∧ lrDepV recordDep = true
    ∧ (launchDev record0 id).recordOk recordSub 0 false = true ∧ lrKind recordSub = 2
    ∧ (launchDev record0 id).recordOk (record0 + 2 ^ 80) 0 false = false ∧ 256 < (launchDev record0 id).freeRecs
    ∧ gives (exec (.launchMailbox 17 65) (launchDev record0 id)) (fun t => t.host.lmbx[17]? == some none) = true := by decide +kernel

/-- The device in the recovery state: before READY, and out of reset. -/
def earlyDev : State := { launchDev record0 id with power := { State.reset.power with ready := false } }
theorem witness_launchRecords_early : earlyDev.power.ready = false ∧ earlyDev.power.linkNext = false ∧ (launchDev record0 id).upsets = []
    ∧ gives (exec (.launchMailbox 17 64) earlyDev) (fun t => t.host.outbox == [(0x101, 0)] && t.sched.recs == []) = true
    ∧ gives (exec (.launchMailbox 17 0) (launchDev record0 id)) (fun t => t.sched.recs == [] && t.host.outbox == []) = true := by decide +kernel

def waitRec : TaskRec := { image := 1, dep := some 3, waiting := true }
theorem witness_counters : (launchDev 0 (fun d => { d with recs := [waitRec], counters := [(3, 65535)] })).counter 3 - 65535 = 0
    ∧ waitRec ∈ (launchDev 0 (fun d => { d with recs := [waitRec] })).sched.recs ∧ waitRec.dep = some 3
    ∧ (launchDev 0 (fun d => { d with counters := [(3, -8388608)] })).counter 3 - 65535 < -8388608
    ∧ ((launchDev 0 (fun d => { d with counters := [(3, -8388608)] })).record recordSub 0 0 false).sched.drop = 1
    ∧ ((launchDev 0 (fun d => { d with recs := [waitRec], counters := [(3, 65535)] })).record recordSub 0 0 false).sched.recs
      = [{ waitRec with waiting := false }]
    ∧ ((launchDev 0 id).record recordDep 0 0 false).counter 3 = 65535 := by decide +kernel

def spillRec : TaskRec := { image := 1, spilled := true }
theorem witness_spill : 256 < (launchDev 0 (fun d => { d with recs := [waitRec, spillRec] })).freeRecs
    ∧ (launchDev 0 (fun d => { d with recs := [waitRec, spillRec] })).sched.recs = [waitRec] ++ spillRec :: []
    ∧ spillRec.spilled = true ∧ waitRec.spilled = false
    ∧ (launchDev 0 (fun d => { d with recs := [waitRec], heldLaunch := [spillRec] })).sched.heldLaunch = spillRec :: []
    ∧ (launchDev 0 (fun d => { d with recs := List.replicate 16384 waitRec })).freeRecs ≤ 256
    ∧ gives (exec .spillRefill (launchDev 0 (fun d => { d with recs := [waitRec, spillRec] })))
        (fun t => t.sched.recs == [waitRec, { spillRec with spilled := false }]) = true := by decide +kernel

def stage0 : Stage := { entry := 0, trig := 0, layer := 0, gang := 1, flags := 0, banks := 0, maxc := 128, wst := 0 }
def pipeDev : State :=
  ((launchDev 0 (fun d => { d with images := [{ img [0] with stages := [stage0] }] })).modCtx 0 (fun c =>
    { c with inst := some (1, 0, 0), quotas := [some 5] }))
theorem witness_quota : (0 : Nat) < pipeDev.sched.ctxs.length ∧ (pipeDev.ctx 0).quotas[0]? = some (some 5)
    ∧ pipeDev.stageOf 0 0 = some stage0 ∧ pipeDev.now < pipeDev.sched.nextQuota
    ∧ ({ pipeDev with now := 23000 } : State).sched.nextQuota ≤ ({ pipeDev with now := 23000 } : State).now
    ∧ gives (exec .quotaEvaluation { pipeDev with now := 23000 }) (fun t => (t.ctx 0).quotas == [some 1]) = true := by
  decide +kernel

/-- The least image: a header, one section, and a text of one word. -/
def imgBytes (scratch : Nat) : List Nat :=
  [0x45, 0x53, 0x4E, 0x44, 1, 0, 1, 0, 8, 0, 0, 0, 0, 0, 0, 0] ++ [0, scratch, 0, 0, 0, 0, 0, 0] ++ List.replicate 40 0
    ++ [1, 0, 0, 0, 80, 0, 0, 0, 4, 0, 0, 0, 0, 0, 0, 0] ++ [0, 0, 0, 0x23]
theorem witness_images : imgOk (imgBytes 16) = true ∧ (∀ b ∈ imgBytes 16, b < 256) ∧ imgOk (imgBytes 1) = false
    ∧ (0 : Nat) < ((imgSection (imgBytes 16) 1).getD []).length / 4
    ∧ gives (exec (.imageRegister 7 [0] (imgBytes 16)) State.reset) (fun t =>
        (t.imageOf 7).any (fun i => i.text == [0x23000000] && i.vregs == 8)) = true := by decide +kernel

/-! Placements -/

def readyRec : TaskRec := { image := 1, level := 4, banks := 1 }
def readyDev (l : List TaskRec) : State := launchDev 0 (fun d => { d with recs := l })
theorem witness_dispatch : (readyDev []).serveFrom (List.range 24) = none ∧ (readyDev [readyRec]).power.ready = true
    ∧ (readyDev [readyRec]).serveFrom (List.range 4) = none
    ∧ ((readyDev [readyRec]).pickAt 4).map (·.1) = some readyRec
    ∧ (readyDev [readyRec]).coresFor readyRec = some [0] ∧ (readyDev [readyRec]).imageOf readyRec.image = some (img [0])
    ∧ readyRec.onCore = none ∧ 1 ≤ readyRec.n ∧ (readyDev [readyRec]).shape = true
    ∧ gives (exec .dispatch (readyDev [readyRec])) (fun t => (t.core 0).ord.starting && t.sched.recs == []
        && lget (t.girder 0).owner 0 none == some 1) = true := by decide +kernel

theorem witness_dispatch_none : ∀ lv, lv < 24 → (readyDev []).serve lv = none := by decide +kernel
theorem witness_dispatch_first : ∀ j, j < 4 → (readyDev [readyRec]).serve j = none := by decide +kernel
theorem witness_victims : { gang1 with level := 8 } ∈
    ((dev [0] id).modSched (fun d => { d with gangs := [{ gang1 with level := 8 }] })).victims 4 := by decide +kernel

def pinnedDev : State := (launchDev 0 id).modCore 127 (fun c => { c with pinned := true })
theorem witness_bootMailbox : pinnedDev.shape = true ∧ pinnedDev.power.ready = true ∧ (pinnedDev.core 127).pinned = true
    ∧ ({ pinnedDev.core 127 with pinned := false } : Core).idle = true ∧ pinnedDev.imageOf (1 % 2 ^ 32) = some (img [0])
    ∧ (img [0]).entry.isSome = true ∧ (pinnedDev.core 0).pinned = false
    ∧ gives (exec (.bootMailbox 127 1 9) pinnedDev) (fun t => (t.core 127).mbArg == 9) = true := by decide +kernel

theorem witness_bootMailbox_early : earlyDev.power.ready = false ∧ earlyDev.power.linkNext = false
    ∧ gives (exec .dispatch earlyDev) (fun t => t.sched.gangs == []) = true
    ∧ gives (exec (.bootMailbox 127 1 9) earlyDev) (fun t => t.host.outbox == [(0x101, 0)]) = true := by decide +kernel

def startDev : State := (readyDev [readyRec]).place readyRec [127] 4
theorem witness_strandStart : startDev.shape = true ∧ startDev.upsets = [] ∧ (startDev.core 127).ord.starting = true
    ∧ (startDev.core 127).gated = false ∧ (startDev.cluster (clusterOf 127)).gated = false
    ∧ startDev.imageOf (startDev.core 127).ord.task.image = some (img [0]) ∧ (startDev.core 127).ord.task.plen = 0
    ∧ (startDev.core 0).ord.starting = false
    ∧ gives (exec (.strandStart 127) startDev) (fun t => (t.core 127).ord.live && (t.core 127).imem == [img [0]]) = true := by
  decide +kernel

/-! Streams -/

def desc64 : StreamDesc :=
  { codec := 1, fps := 1, w := 64, h := 64, f := 2, bsbase := 0, bslog := 16, fbase := 2 ^ 30, es := 36864, tsbase := 0
    layers := [⟨16, 16, 0, 0, 0, 0⟩, ⟨16, 16, 0, 0, 0, 0⟩] }
/-- Stream 5 of context 0, whose XID maps the gigabyte at 2^30 onto itself. -/
def stream5 : Stream := { desc := desc64, slots := 1 }
def streamDev (x : Stream) : State :=
  { (launchDev 0 id).modCtx 0 (fun c => { c with stream := some 5 }) with
    streams := [(5, x)]
    home := mputn (mputn [] 4096 8 (2 * 4096 + 3)) (2 * 4096 + 8) 8 (2 ^ 30 + 0x05)
    xlt := { xids := [(0, ⟨4096, 0, true⟩)] } }.modStack 0 (fun k => { k with poolBase := 4096, poolSize := 2 * 4096 })
def frame64 : FrameData :=
  { luma := List.replicate 16384 1, chroma := List.replicate 8192 2, blocks := List.replicate 64 ⟨[.intra], []⟩
    consumed := 0 }
theorem witness_streams : (streamDev stream5).stream 5 = some stream5 ∧ streamOk desc64 = true
    ∧ (streamDev stream5).canDeliver stream5 0 frame64 = true ∧ stream5.delivered = false ∧ stream5.paused = false
    ∧ (match (streamDev stream5).bitstream stream5 0 with | .ok _ => true | .error _ => false) = true
    ∧ (streamDev stream5).entryBad stream5 0 frame64 = none
    ∧ (match (streamDev stream5).readStates stream5 0 0 with | .ok _ => true | .error _ => false) = true
    ∧ (streamDev stream5).upsets = [] ∧ ({ stream5 with paused := true } : Stream).paused = true
    ∧ (streamDev stream5).canDeliver stream5 0 { frame64 with consumed := 1 } = false
    ∧ stream5.desc.layers[0]? = some ⟨16, 16, 0, 0, 0, 0⟩ ∧ (streamDev stream5).stream 4 = none
    ∧ gives (exec (.bitstreamWrite 5 65537) (streamDev stream5)) (fun t => (t.stream 5).any (·.ovr)) = true
    ∧ gives (exec (.bitstreamWrite 5 65536) (streamDev stream5)) (fun t => (t.stream 5).any (fun x => x.bsWrite == 65536)) = true
    ∧ gives (exec (.decodeError 5) (streamDev stream5)) (fun t => (t.stream 5).any (·.err)) = true
    ∧ gives (exec (.streamReclaim 5) (streamDev stream5)) (fun t => t.stream 5 == none && (t.ctx 0).stream == none) = true := by
  decide +kernel

def decided5 : Stream := { stream5 with delivered := true, decs := [{ layer := 0, frame := 0, tiles := [{ act := 1 }] }] }
theorem witness_layerDecision : ((streamDev decided5).readStates decided5 1 0).isOk = true ∧ decided5.nextFor 1 = some 0 ∧ stream5.nextFor 1 = none
    ∧ decided5.desc.layers[1]? = some ⟨16, 16, 0, 0, 0, 0⟩ ∧ decided5.desc.layers[1 - 1]? = some ⟨16, 16, 0, 0, 0, 0⟩
    ∧ gives (exec (.layerDecision 5 1) (streamDev decided5)) (fun t => (t.stream 5).any (fun x => (x.decOf 1 0).isSome)) = true := by
  decide +kernel

theorem witness_streamCreate : (383 : Nat) < 384 ∧ 1023 < (streamDev stream5).sched.ctxs.length
    ∧ (streamDev stream5).stream 383 = none ∧ ((streamDev stream5).ctx 1023).stream = none
    ∧ (streamDev { stream5 with slots := 24 }).slotsUsed 1 + cdiv (desc64.w * desc64.h * desc64.fps) 62668800 ≤ 24
    ∧ 24 < (streamDev { stream5 with slots := 24 }).slotsUsed 0 + cdiv (desc64.w * desc64.h * desc64.fps) 62668800
    ∧ streamOk { desc64 with fps := 121 } = false
    ∧ gives (exec (.streamCreate 383 1023 desc64) (streamDev stream5)) (fun t => (t.ctx 1023).stream == some 383) = true := by
  decide +kernel

theorem witness_cmuDeferred : (0 : Nat) < cmuDev.cores.length ∧ (cmuDev.strand 0).live = true
    ∧ (cmuDev.ctx (cmuDev.strand 0).task.ctx).stream ≠ none
    ∧ gives (exec (.cmuDeferredWrite 0 0x47F 9) cmuDev) (fun t => (t.strand 0).held == [.cmu 0x47F 9]) = true := by
  decide +kernel

/-! SystemControl -/

theorem witness_systemControl : (dev [0] id).shape = true ∧ ((dev [0] id).strand 0).live = true
    ∧ ((dev [0] id).strand 0).commit ≠ .done ∧ ((endDev .done).strand 0).commit = .done
    ∧ gives (exec (.debugStop 0) (dev [0] id)) (fun t => (t.strand 0).stopped) = true
    ∧ gives (exec (.slipwWrite 127 8191) (dev [0] id)) (fun t => (t.strand 127).slipw == 4096) = true
    ∧ gives (exec (.managementPathWrite 31 0x200 65) (dev [0] id)) (fun t => (t.girder 31).leaseLen == 16) = true
    ∧ gives (exec (.managementPathWrite 31 0x201 1024) (dev [0] id)) (fun t => (t.girder 31).leaseCyc == 1024) = true
    ∧ gives (exec (.managementPathWrite 0 0x700 65535) (dev [0] id)) (fun t => t.err.wdog == 0x04000000) = true := by
  decide +kernel

def errDev (f : Err → Err) : State := (dev [0] id).modErr f
theorem witness_units : 7 ∈ (errDev (fun e => { e with poisoned := [7] })).err.poisoned
    ∧ 7 ∉ (errDev (fun e => { e with poisoned := [7] })).err.retired
    ∧ (errDev (fun e => { e with volt := [(.core 5, 1)] })).err.below (.core 5) = 0 + 1 ∧ (errDev id).err.below (.core 5) = 0
    ∧ 127 < (errDev id).cores.length ∧ 31 < (errDev id).clusters.length ∧ (errDev id).power.resetAt ≤ (errDev id).now
    ∧ 0x1F000 / 4096 % 32 = 31 ∧ clusterOf 127 = 31 ∧ stackOf 31 = 7
    ∧ gives (exec (.pageRetire 7) (errDev (fun e => { e with poisoned := [7] }))) (fun t => t.err.retired == [7]) = true
    ∧ (errDev id).failing (.core 5) = false
    ∧ gives (exec (.returnToService (.stack 7)) (errDev id)) (fun t => !(t.cluster 31).fenced) = true
    ∧ gives (exec (.wstRefreshSlot 31) (errDev id)) (fun t => t.refreshing 0x1F000) = true := by decide +kernel

/-- The SRAM of a unit has had one corrected error more than its threshold within the second. -/
def failingDev (volt : List (UnitId × Nat)) (u : UnitId) : State :=
  errDev (fun e => { e with volt := volt, corrs := List.replicate (Config.predictAt u 0 + 1) (u, 0, 0) })
theorem witness_predictive (volt : List (UnitId × Nat)) (u : UnitId) : (failingDev volt u).failing u = true := by
  have h : (failingDev volt u).recentCorr u 0 = Config.predictAt u 0 + 1 := by
    have hc : (failingDev volt u).err.corrs = List.replicate (Config.predictAt u 0 + 1) (u, 0, 0) := rfl
    have hn : (failingDev volt u).now = 0 := rfl
    simp [State.recentCorr, hc, hn, reportWindow]
  simp only [State.failing, List.any_eq_true]
  exact ⟨0, by decide, by simp [h]⟩
theorem witness_predictive_volt : (failingDev [(.core 5, 1)] (.core 5)).err.below (.core 5) = 0 + 1
    ∧ (failingDev [] (.core 5)).err.below (.core 5) = 0 ∧ 5 < (failingDev [] (.core 5)).cores.length := by
  refine ⟨rfl, rfl, by decide +kernel⟩

/-! ParapetPath -/

/-- Cores 4 and 127 designated, with the Parapet image of handle 128 resident in both. -/
def parImg : Image := { img [0] with handle := 128 }
def parDev (f : Err → Err) : State :=
  (((State.reset.modSched (fun d => { d with images := [parImg] })).modErr (fun e =>
    f { e with coreA := 4, coreB := 127, img := 128, designated := true })).modCore 4 (fun c => { c with imem := [parImg] })).modCore
      127 (fun c => { c with imem := [parImg] })
theorem witness_parapet : (parDev id).shape = true ∧ (parDev id).err.coreA < 128 ∧ (parDev id).err.coreB < 128
    ∧ (parDev id).power.ready = true ∧ (parDev id).armed = false ∧ (parDev (fun e => { e with arm := true })).armed = true
    ∧ (parDev (fun e => { e with arm := true })).parapetBusy = false
    ∧ (parDev (fun e => { e with arm := true, run := true })).parapetBusy = true
    ∧ ((parDev id).core 4).fenced = false ∧ ((parDev id).core 127).fenced = false ∧ (parDev id).parResident 4 = true
    ∧ (parDev id).parResident 127 = true ∧ bit 1 0 = true ∧ bit 1 1 = false ∧ fld 1 32 32 < 10 ∧ (parDev id).err.arm = false
    ∧ bit 0 0 = false ∧ (parDev id).err.run = false
    ∧ gives (exec (.parapetArm 1) (parDev id)) (fun t => t.err.arm && !t.err.latch && t.err.count == 1) = true
    ∧ gives (exec (.parapetDisarm 0) (parDev (fun e => { e with arm := true }))) (fun t => !t.err.arm && t.err.latch) = true
    ∧ gives (exec (.parapetFire 1) (parDev (fun e => { e with arm := true }))) (fun t => (t.core 4).preempt == 1
        && (t.core 127).preempt == 1) = true
    ∧ gives (exec .parapetClr (parDev id)) (fun t => !t.err.latch && t.err.ha) = true := by decide +kernel

def desigVal : Nat := 4 + 128 + 127 * 2 ^ 32
theorem witness_designate : (parDev id).sched.images.find? (fun i => i.handle == fld desigVal 7 25 * 128) = some parImg
    ∧ clusterOf (fld desigVal 0 7) ≠ clusterOf (fld desigVal 32 7)
    ∧ clusterOf (fld (4 + 7 * 2 ^ 32) 0 7) = clusterOf (fld (4 + 7 * 2 ^ 32) 32 7)
    ∧ (parDev id).sched.images.find? (fun i => i.handle == fld (4 + 127 * 2 ^ 32) 7 25 * 128) = none
    ∧ gives (exec (.parapetDesignate desigVal) (parDev (fun e => { e with designated := false }))) (fun t => t.err.designated) = true := by
  decide +kernel

def write1 (counted : Bool) : PWrite := { fromA := true, val := 0, sig := 0, since := 0, counted := counted }
theorem witness_haltOutputs : (parDev (fun e => { e with run := true, dead := 10 })).err.run = true
    ∧ 0 + 2300 * 10 ≤ ({ parDev (fun e => { e with run := true, dead := 10 }) with now := 23000 } : State).now
    ∧ write1 false ∈ (parDev (fun e => { e with unpaired := [write1 false] })).err.unpaired
    ∧ (write1 false).since + 2300 ≤ ({ parDev id with now := 2300 } : State).now
    ∧ gives (exec .parapetDeadline { parDev (fun e => { e with run := true, dead := 10 }) with now := 23000 })
        (fun t => t.err.ha && t.err.latch && !t.err.run) = true
    ∧ gives (exec .partnerTimeout { parDev (fun e => { e with unpaired := [write1 false] }) with now := 2300 })
        (fun t => t.err.latch) = true
    ∧ lget (parDev (fun e => { e with off := [some 0, some 23001] })).err.off (1 % 2) none = some 23001
    ∧ (∀ n, lget (parDev id).err.off (1 % 2) none = some n → n ≤ 23000)
    ∧ gives (exec (.outputSense 1) (parDev (fun e => { e with off := [some 0, some 23001], latch := false }))) (fun t =>
        t.err.hb && t.err.latch) = true := by
  refine ⟨by decide +kernel, by decide +kernel, by decide +kernel, by decide +kernel, by decide +kernel, by decide +kernel,
    by decide +kernel, ?_, by decide +kernel⟩
  intro n hn
  have h : lget (parDev id).err.off (1 % 2) none = some 0 := by decide +kernel
  rw [h] at hn
  cases hn
  decide

/-- The designated cores before READY. -/
def earlyPar : State := { parDev (fun e => { e with arm := true }) with power := { State.reset.power with ready := false } }
theorem witness_parapet_early : earlyPar.power.ready = false ∧ earlyPar.power.linkNext = false
    ∧ gives (exec (.parapetFire 1) earlyPar) (fun t => t.host.outbox == [(0x101, 0)] && (t.core 4).preempt == 0) = true
    ∧ gives (exec (.parapetDisarm 0) earlyPar) (fun t => t.err.arm) = true := by decide +kernel

def inParDev (l : List PWrite) : State :=
  (parDev (fun e => { e with unpaired := l, latch := false })).modCore 127 (fun c => { c with inPar := true })
theorem witness_haltRequest : ((inParDev []).core 127).inPar = true ∧ (inParDev []).err.unpaired = []
    ∧ (inParDev [write1 false]).err.unpaired = write1 false :: [] ∧ (write1 false).fromA ≠ (127 == (inParDev []).err.coreA)
    ∧ (write1 false).val = 0 ∧ (write1 false).sig = ((inParDev []).core 127).crc ∧ (inParDev []).err.latch = false
    ∧ ((inParDev []).core 4).inPar = false
    ∧ gives (exec (.haltRequest 127 0) (inParDev [write1 false])) (fun t => !t.err.ha && !t.err.hb) = true
    ∧ gives (exec (.haltRequest 127 1) (inParDev [write1 false])) (fun t => t.err.ha && t.err.latch) = true
    ∧ (write1 false).since + 2300 < ({ inParDev [write1 false] with now := 2301 } : State).now
    ∧ gives (exec (.haltRequest 127 0) { inParDev [write1 false] with now := 2301 }) (fun t => t.err.ha && t.err.latch) = true
    := by decide +kernel

def preDev : State := (parDev id).modCore 127 (fun c => { c with preempt := 1 })
theorem witness_preempt : preDev.shape = true ∧ preDev.power.ready = true ∧ preDev.upsets = [] ∧ (preDev.core 127).preempt = 1 ∧ (preDev.core 127).ord.live = false
    ∧ (preDev.core 127).ord.starting = false ∧ (preDev.girder (clusterOf 127)).holder = none
    ∧ (preDev.core 127).imem.find? (fun i => i.handle == preDev.err.img) = some parImg ∧ (preDev.core 4).preempt ≠ 1
    ∧ gives (exec (.parapetPreempt 127) preDev) (fun t => (t.core 127).inPar && (t.strand 127).live && t.err.run) = true := by
  decide +kernel

/-! ContextSetup -/

def cfg0 : CtxConfig :=
  { base := 23, ceil := 4, weight := 255, qbase := 0, qcap := 65536, dbase := 4095, dcnt := 1, xid := 4095, faultBase := 8192
    falog := 4, vec := 63, owner := 16, pasid := none, stream := none, inst := none }
theorem witness_contexts : (launchDev 0 id).sched.ctxs.length = 1024 ∧ (launchDev 0 id).cfgFits 1023 cfg0 = true ∧ cfg0.inst = none
    ∧ (launchDev 0 id).cfgFits 1023 { cfg0 with ceil := 3 } = false ∧ ((streamDev stream5).ctx 0).stream = some 5
    ∧ (streamDev stream5).stream 5 = some stream5
    ∧ gives (exec (.contextConfigure 1023 cfg0) (launchDev 0 id)) (fun t => (t.ctx 1023).qcap == 65536) = true
    ∧ gives (exec (.contextUnfence 0) (streamDev { stream5 with paused := true })) (fun t => (t.stream 5).any (fun x => !x.paused))
      = true := by decide +kernel

def edgeP : Edge := { src := 0, dst := 0, cls := 0, quota := 1 }
def pipeImg : Image := { img [0] with stages := [stage0], edges := [edgeP] }
def instDev : State := launchDev 0 (fun d => { d with images := [pipeImg] })
def inst0 : InstReq := { image := 1, cluster := 31, arg := 9, carve := 1, slots := [[⟨3, 127⟩]] }
def instNew : State := (instDev.instCreate 0 inst0).getD instDev
theorem witness_instances : instDev.shape = true ∧ (instDev.instCreate 0 inst0).isSome = true
    ∧ instDev.sched.images.find? (fun i => i.handle == inst0.image && i.ctxs.contains 0 && !i.stages.isEmpty) = some pipeImg
    ∧ pipeImg.edges[0]? = some edgeP ∧ (instDev.instCreate 0 { inst0 with slots := [[⟨3, 126⟩]] }).isNone = true
    ∧ instNew.shape = true ∧ ((instNew.cluster 31).parts.map (·.ctx)) = [0]
    ∧ gives (exec (.pipelineInstanceDestroy 0) instNew) (fun t => (t.cluster 31).parts == [] && (t.cluster 31).lastGen 127 127 == 1)
      = true := by decide +kernel

theorem witness_carve : State.reset.shape = true ∧ (State.reset.cluster 31).parts = [] ∧ (instNew.cluster 31).parts ≠ []
    ∧ (∀ l, l < 4 → State.reset.allotOf (4 * 31 + l) + 4096 * 64 ≤ 0x80000)
    ∧ gives (exec (.carveSet 31 64) State.reset) (fun t => (t.cluster 31).carve == 64) = true := by decide +kernel

def bufD : BufDesc := { base := 2 ^ 36, extents := 1, esize := 0, backA := 8192, backB := 12288 }
def apD : ApDesc :=
  { abase := 2 ^ 21, sbase := 128, rows := 64, cols := 64, pitch := 256, kind := 1, ty := 6, smode := 0, blk := 0, scales := 0 }
theorem witness_descriptors : bufOk bufD = true ∧ bufOk { bufD with backB := 8192 } = false
    ∧ (∀ b ∈ (State.reset.ctx 0).bufs, b.handle ≠ 4095 ∧ spansMeet bufD.base (bufBytes bufD) b.desc.base (bufBytes b.desc) = false)
    ∧ apOk apD = true ∧ apOk { apD with kind := 3 } = false
    ∧ gives (exec (.publishedBufferCreate 0 4095 bufD) State.reset) (fun t => (t.ctx 0).bufs.length == 1) = true
    ∧ gives (exec (.apertureCreate 0 63 apD) State.reset) (fun t => (t.ctx 0).aps == [⟨63, apD, []⟩]) = true
    ∧ (streamDev stream5).xidOk ⟨4096, 63, true⟩ = true ∧ (streamDev stream5).xidOk ⟨4096, 64, true⟩ = false
    ∧ gives (exec (.xidRecordWrite 4095 ⟨4096, 63, true⟩) (streamDev stream5)) (fun t => aget t.xlt.xids 4095 == some ⟨4096, 63, true⟩)
      = true := by decide +kernel

/-! Translation -/

/-- A leaf of XID 0 for the page at 2^30, which is compressed. -/
def leaf30 : TlbEntry :=
  { xid := 0, vpage := 1, shift := 30, frame := 2 ^ 30, w := true, c := true, mig := false, tables := [2 * 4096, 4096] }
def tlbDev (busy : Bool) : State :=
  { ((streamDev stream5).modCore 127 (fun c => { c with tlb := [leaf30], ord := { strand1 with psts := [] } })) with
    home := mputn (streamDev stream5).home (2 * 4096 + 8) 8 (2 ^ 30 + 0x0D)
    xlt := { xids := [(0, ⟨4096, 0, true⟩)], busy := busy } }
theorem witness_invalidations : (tlbDev false).xlt.busy = false ∧ (tlbDev false).shape = true ∧ leaf30.xid = 0
    ∧ leaf30.vpage = 4096 * (2 ^ 18) / 2 ^ leaf30.shift ∧ leaf30.vpage ≠ 4096 * (2 ^ 19) / 2 ^ leaf30.shift
    ∧ (∀ k, k < 128 → (tlbDev true).holdsAccess k = false)
    ∧ gives (exec (.invalPage 0 (2 ^ 18)) (tlbDev false)) (fun t => (t.core 127).tlb == [] && t.xlt.busy) = true
    ∧ gives (exec (.invalPage 0 (2 ^ 19)) (tlbDev false)) (fun t => (t.core 127).tlb == [leaf30]) = true
    ∧ gives (exec (.invalXid 0) (tlbDev false)) (fun t => (t.core 127).tlb == []) = true
    ∧ gives (exec .invalidationDone (tlbDev true)) (fun t => !t.xlt.busy) = true := by decide +kernel

/-- An invalidation of the page at 2^30 in progress, and a store that went through its translation. -/
def storeDev : State := ({ tlbDev true with xlt := { (tlbDev true).xlt with run := (0, 0, 2 ^ 18) } } : State).modStrand 127 (fun t =>
  { t with psts := [{ tok := none, cls := 0, eng := .s, text := 0, writes := [(.mem 64, 0#8)], via := [(1, 30)] }] })
theorem witness_invalidations_held : storeDev.holdsAccess 127 = true
    ∧ gives (exec .invalidationDone storeDev) (fun t => t.xlt.busy) = true := by decide +kernel

def missDev (va : Nat) : State := (tlbDev false).modStack 7 (fun k => { k with missq := [⟨127, 0, va, .s, 0⟩] })
theorem witness_walks : (missDev (2 ^ 30)).shape = true ∧ ((missDev (2 ^ 30)).stack 7).missq = ⟨127, 0, 2 ^ 30, .s, 0⟩ :: []
    ∧ (missDev (2 ^ 30)).asker ⟨127, 0, 2 ^ 30, .s, 0⟩ = true
    ∧ (missDev (2 ^ 30)).walkWith ((missDev (2 ^ 30)).stack 7).walkCache 7 0 (2 ^ 30) = .hit leaf30
    ∧ 2 ^ 30 / 2 ^ leaf30.shift = leaf30.vpage
    ∧ (missDev (2 ^ 31)).walkWith ((missDev (2 ^ 31)).stack 7).walkCache 7 0 (2 ^ 31) = .fault 2
    ∧ (missDev (2 ^ 31)).asker ⟨5, 0, 2 ^ 31, .s, 0⟩ = false
    ∧ gives (exec (.pageWalk 7 7) (missDev (2 ^ 30))) (fun t => (t.cluster 31).tlb == [leaf30] && (t.stack 7).missq == []) = true
    ∧ gives (exec (.pageWalk 7 7) (missDev (2 ^ 31))) (fun t => (t.strand 127).walkFault == [2 ^ 19]) = true := by decide +kernel

/-- The table page that holds the leaf is poisoned. -/
def badWalkDev : State := (missDev (2 ^ 30)).modErr (fun e => { e with poisoned := [2] })
theorem witness_walks_poison : badWalkDev.shape = true ∧ badWalkDev.asker ⟨127, 0, 2 ^ 30, .s, 0⟩ = true
    ∧ (badWalkDev.stack 7).missq = ⟨127, 0, 2 ^ 30, .s, 0⟩ :: []
    ∧ (match badWalkDev.walkWith (badWalkDev.stack 7).walkCache 7 0 (2 ^ 30) with | .poison p _ => p | _ => 0) = 8192
    ∧ (∀ x ∈ ([] : List WalkReq), x.joins 2 0 (2 ^ 30) = true → badWalkDev.asker x = false)
    ∧ gives (exec (.pageWalk 7 7) badWalkDev) (fun t => (t.stack 7).missq == []) = true
    ∧ gives (exec (.invalPage 5 6) (tlbDev true)) (fun t => t.xlt.busy && t.xlt.invXid == 5 && t.xlt.run == (0, 0, 0)) = true := by
  decide +kernel

def migDev : State :=
  { tlbDev false with home := mputn (tlbDev false).home (2 * 4096 + 8) 8 (2 ^ 30 + 0x1D) }
theorem witness_migrations : (tlbDev false).leafOf 0 (2 ^ 30) = some (leaf30, [2 * 4096 + 8]) ∧ leaf30.c = true
    ∧ (tlbDev false).xlt.busy = false ∧ 2 ^ 31 % 2 ^ leaf30.shift = 0 ∧ 2 ^ 31 < deviceEnd ∧ leaf30.mig = false
    ∧ migDev.leafOf 0 (2 ^ 30) = some ({ leaf30 with mig := true }, [2 * 4096 + 8])
    ∧ gives (exec (.pageMigration 0 (2 ^ 30) (2 ^ 31) 1) (tlbDev false)) (fun t => mnat t.home (2 * 4096 + 8) 8 == 2 ^ 30 + 0x1D) = true
    ∧ gives (exec (.pageMigration 0 (2 ^ 30) (2 ^ 31) 3) migDev) (fun t => mnat t.home (2 * 4096 + 8) 8 == 2 ^ 31 + 0x0D) = true := by
  decide +kernel

def dirty1 : Line := { key := 128, cls := 0, valid := 3#128, dirty := 2#128, data := 0x0900#1024 }
def lineDev : State := (dev [0] id).modCore 127 (fun c => { c with l1 := [dirty1] })
def sliceDev : State := (dev [0] id).modCluster 31 (fun c => { c with slice := [dirty1] })
theorem witness_drains : lineDev.shape = true ∧ lineDev.memWf = true ∧ (lineDev.core 127).l1[0]? = some dirty1
    ∧ (lineFind (lineDev.cluster 31).slice 128).isSome = false ∧ lineDev.upsets = []
    ∧ (roomFor 16 65536 (lineDev.pick 5) (lineDev.cluster 31).slice).1 = none
    ∧ dirty1.dirty ≠ 0#128 ∧ dirty1.dirty &&& dirty1.valid = dirty1.dirty ∧ sliceDev.shape = true ∧ sliceDev.memWf = true
    ∧ (sliceDev.cluster 31).slice[0]? = some dirty1 ∧ sliceDev.poisonedPa dirty1.key = false ∧ 128 * (stackBytes / 128 - 1) < stackBytes
    ∧ gives (exec (.dirtyLineDrain .l1 127 0) lineDev) (fun t => ((t.cluster 31).slice.map (·.dirty)) == [2#128]) = true
    ∧ gives (exec (.dirtyLineDrain .slice 31 0) sliceDev) (fun t => mget t.home 129 == 9#8) = true
    ∧ gives (exec (.dirtyLineDrain .msc 7 0) { lineDev with home := [(7 * stackBytes, 9#8)] }) (fun t =>
        mget t.hbm (7 * stackBytes) == 9#8) = true := by decide +kernel

/-! HostAccess -/

/-- Function 1 is granted the page at 4096. -/
def hostDev : State := State.reset.modHost (fun h => { h with grants := [(1, 4096, 8192)], msixMask := [3], msixPend := [3] })
theorem witness_bar2 : hostDev.host.bar2[0]? = some (0, 0x40000000) ∧ hostDev.power.ready = true
    ∧ 0x3FFFFFF8 + 8 ≤ 0x40000000 ∧ 0 + 0x3FFFFFF8 + 8 ≤ deviceEnd ∧ hostDev.err.poisoned = []
    ∧ (∀ k, k < 8 → (hostDev.stack k).fenced = false) ∧ hostDev.host.bar2[2]? = some (0, 0x10000000)
    ∧ (∀ g ∈ hostDev.host.grants, g.1 ≠ 2) ∧ hostDev.barReach 1 8188 4 = some 8188 ∧ hostDev.barReach 1 8188 8 = none
    ∧ hostDev.ideRefuses 0 = false ∧ hostDev.ideRefuses 1 = false
    ∧ 1 ∈ ((hostDev.requireIde 1 true).arriveIn true).host.ideOnly ∧ ((hostDev.requireIde 1 true).arriveIn true).host.plain = true
    ∧ gives (exec (.inboundRead 1 8188 4 false) ((hostDev.requireIde 1 true).arriveIn true)) (fun t =>
        t.host.outbox == [(0x101, 0)]) = true
    ∧ 0 < 4 ∧ hostDev.granted 1 1 = true ∧ hostDev.granted 1 2 = false ∧ hostDev.host.bar2[1]? = some (0, 0x10000000)
    ∧ 8188 % wsizeBytes .word = 0 ∧ 8190 % wsizeBytes .word ≠ 0
    ∧ gives (exec (.inboundWrite 1 8188 [1, 2, 3, 4]) hostDev) (fun t => mget t.home 8191 == 4#8) = true
    ∧ gives (exec (.inboundRead 1 8188 8 false) hostDev) (fun t => t.host.outbox == [(0x101, 0)]) = true
    ∧ gives (exec (.inboundAtomic 1 8188 (.cas 0 7) .word) hostDev) (fun t => mget t.home 8188 == 7#8) = true := by decide +kernel

theorem witness_hostMessages : hostDev.busPending 1 0 = false
    ∧ gives (exec (.msixUnmask 3) hostDev) (fun t => t.host.msixSent == [3] && t.host.msixPend == []) = true
    ∧ gives (exec (.atsInvalidation 1 0 5 1) (hostDev.modHost (fun h => { h with atc := [(1, 0, 5, 9, true), (1, 0, 6, 9, true)] })))
        (fun t => t.host.atc == [(1, 0, 6, 9, true)]) = true
    ∧ gives (exec (.ideKeyProgram 8 77) hostDev) (fun t => aget t.host.ide 8 == some 77) = true := by decide +kernel

def busDev : State := ((dev [0] id).modStrand 0 (fun t => { t with psts := [{ tok := none, cls := 0, eng := .s, text := 0, writes := [(.bus 64, 0#8)] }] })).modCtx 0
  (fun c => { c with owner := 1, pasid := some 0 })
theorem witness_busPending : busDev.busPending 1 0 = true := by decide +kernel

def spdmDev (c ph : Nat) : State :=
  State.reset.modHost (fun h => { h with spdm := c, session := ph, chains := h.chains.set 7 [1, 2] })
/-- In a reset, at link training, and in the recovery state. -/
def spdmAt (f : Power → Power) : State := { spdmDev 1 0 with power := f { State.reset.power with ready := false } }
theorem witness_spdm_reset : (spdmAt (fun p => { p with inReset := true })).power.inReset = true
    ∧ (spdmAt (fun p => { p with linkNext := true })).power.linkNext = true ∧ (spdmAt id).power.ready = false
    ∧ (spdmAt id).power.inReset = false ∧ (spdmAt id).power.linkNext = false
    ∧ (spdmDev 3 0).power.inReset = false ∧ (spdmDev 3 0).power.linkNext = false
    ∧ gives (exec .getCapabilities (spdmAt (fun p => { p with inReset := true }))) (fun t =>
        t.power.spdmq == [.event .getCapabilities] && t.host.outbox == []) = true
    ∧ gives (exec .getCapabilities (spdmAt id)) (fun t => t.host.outbox == [(0x7F, 0)]) = true := by decide +kernel

theorem witness_spdm_finish : ∃ a, (spdmDev 3 1).host.session = 1 ∧ a = Config.finishMac (spdmDev 3 1).host.sessionId :=
  ⟨_, by decide +kernel, rfl⟩

theorem witness_spdm : (spdmDev 3 0).power.ready = true ∧ (spdmDev 3 0).host.chains.length = 8 ∧ (spdmDev 1 0).host.spdm = 1
    ∧ (spdmDev 2 0).host.spdm = 2 ∧ bit (2 ^ 11) 11 = true ∧ bit (2 ^ 5) 5 = true ∧ (spdmDev 3 0).host.spdm = 3
    ∧ 1 < ((spdmDev 3 0).chainOf 7).length ∧ (spdmDev 3 0).chainOf 7 ≠ [] ∧ (spdmDev 3 0).host.session = 0
    ∧ (spdmDev 3 1).host.session = 1 ∧ (spdmDev 3 2).host.session = 2
    ∧ gives (exec .getCapabilities (spdmDev 1 0)) (fun t => t.host.spdm == 2) = true
    ∧ gives (exec .getDigests (spdmDev 2 0)) (fun t => t.host.outbox == [(0x7F, 0)]) = true
    ∧ gives (exec (.getCertificate 7 1 1) (spdmDev 3 0)) (fun t => t.host.outbox == [(0x02, 2)]) = true
    ∧ gives (exec (.setCertificate 7 [5]) (spdmDev 3 0)) (fun t => t.chainOf 7 == [5]) = true
    ∧ gives (exec .endSession (spdmDev 3 2)) (fun t => t.host.session == 0) = true := by decide +kernel

/-! PowerAndBoot -/

def resetDev (f : Power → Power) : State := { State.reset with power := f { State.reset.power with ready := false } }
def boot0 : BootResult := { pattern := 0, trained := true, badUnits := [], cause := 7 }
theorem witness_power : ((16 = 16 ∨ 16 = 8) ∧ (32 = 128 ∨ 32 = 64 ∨ 32 = 32)) ∧ ((4 ≠ 16 ∧ 4 ≠ 8) ∨ (32 ≠ 128 ∧ 32 ≠ 64 ∧ 32 ≠ 32))
    ∧ (resetDev (fun p => { p with inReset := true })).power.inReset = true ∧ boot0.badUnits = []
    ∧ (resetDev (fun p => { p with inReset := true })).power.recov = none ∧ (resetDev id).power.linkNext = false
    ∧ (resetDev id).power.ready = false ∧ (resetDev id).power.inReset = false ∧ (∀ b ∈ [255], b < 256)
    ∧ gives (exec (.linkTraining 16 32 true) State.reset) (fun t => t.host.linkUp && t.host.rate == 32) = true
    ∧ gives (exec (.linkTraining 4 32 true) State.reset) (fun t => t.power.linkFailed) = true
    ∧ gives (exec .pfFlr (dev [0] id)) (fun t => t.err.ha && !(t.core 0).ord.live) = true
    ∧ gives (exec (.powerGood boot0) (resetDev (fun p => { p with inReset := true, recov := some (4, 9) })))
        (fun t => !t.power.ready && t.power.failStep == 4 && t.power.cause == 9) = true
    ∧ gives (exec (.linkTraining 16 32 true) (resetDev (fun p => { p with linkNext := true }))) (fun t => t.power.ready) = true
    ∧ gives (exec (.flashRewrite [255]) (resetDev id)) (fun t => t.power.flash == [255]) = true := by decide +kernel

def ownedDev : State := State.reset.modCtx 1023 (fun c => { c with configured := true, owner := 16 })
theorem witness_vfFlr : ownedDev.sched.ctxs.length = 1024 ∧ (ownedDev.ctx 1023).configured = true ∧ (ownedDev.ctx 1023).owner = 16 := by decide +kernel

/-- Every Girder's delay at k, a limit of 500 watts, and the power above it since cycle 0. -/
def wattDev (k now : Nat) (f : Power → Power) : State :=
  { State.reset with
    clusters := State.reset.clusters.map (fun (c : Cluster) => { c with gir := { c.gir with k := k } })
    power := f { State.reset.power with plim := 500 }
    now := now }
def over0 (p : Power) : Power := { p with overSince := some 0, heatAt := some 0 }
theorem witness_powerLimits : (wattDev 7 0 id).shape = true ∧ (wattDev 7 0 id).parCluster 31 = false ∧ ((wattDev 7 0 id).girder 31).k = 7
    ∧ ((wattDev 8 0 id).girder 31).k ≤ 8 ∧ (wattDev 7 0 id).power.plim < 501 ∧ (wattDev 7 0 id).power.overSince = none
    ∧ (wattDev 8 230000 over0).power.overSince = some 0 ∧ 0 + 230000 ≤ (wattDev 8 230000 over0).now
    ∧ (∀ x ∈ (wattDev 8 0 id).power.readings, x.2 ≤ (wattDev 8 0 id).power.plim) ∧ (wattDev 8 0 id).power.temp ≤ 95
    ∧ (wattDev 7 0 id).power.heatAt = none ∧ (wattDev 7 229999 over0).now < 0 + 230000 ∧ (wattDev 7 0 id).isParapet 124 = false
    ∧ gives (exec (.powerLimit 501) (wattDev 7 0 id)) (fun t => (t.girder 31).k == 8 && !t.power.delayPlace) = true
    ∧ gives (exec (.powerLimit 501) (wattDev 8 230000 over0)) (fun t => t.heldOff 124) = true
    ∧ gives (exec (.powerLimit 500) (wattDev 8 0 id)) (fun t => (t.girder 31).k == 7) = true
    ∧ gives (exec (.powerLimit 500) (wattDev 8 0 (fun p => { p with temp := 96 }))) (fun t => (t.girder 31).k == 8) = true
    ∧ gives (exec (.thermalLimit 115) (wattDev 7 0 id)) (fun t => (t.girder 31).k == 8 && t.power.stopPlace && t.heldOff 124) = true
    ∧ gives (exec (.thermalLimit 115) (wattDev 7 229999 over0)) (fun t => (t.girder 31).k == 7) = true
    ∧ gives (exec (.thermalLimit 95) (wattDev 7 0 id)) (fun t => !t.power.stopPlace) = true := by decide +kernel

def gateDev : State := { State.reset with
  cores := State.reset.cores.mapIdx (fun k (c : Core) => { c with gated := decide (124 ≤ k), imem := [img [0]] }), now := 115000 }
theorem witness_gates : gateDev.shape = true ∧ (gateDev.core 0).free = true ∧ (gateDev.core 0).gated = false
    ∧ gateDev.isParapet 0 = false ∧ (gateDev.core 0).freeSince + 23000 ≤ gateDev.now
    ∧ (∀ j, j < 4 → (gateDev.core (4 * 31 + j)).gated = true) ∧ (gateDev.cluster 31).gated = false
    ∧ (gateDev.cluster 31).parts = [] ∧ (∀ o ∈ (gateDev.girder 31).owner, o = none) ∧ gateDev.parCluster 31 = false
    ∧ (gateDev.core (4 * 0 + 0)).gated = false ∧ (gateDev.stack 7).lastAccess + 115000 ≤ gateDev.now
    ∧ State.reset.now < (State.reset.stack 7).lastAccess + 115000
    ∧ gives (exec (.coreGate 0) gateDev) (fun t => (t.core 0).gated && (t.core 0).gateAt == 115000) = true
    ∧ (gateDev.core 127).gateAt < gateDev.now ∧ ({ gateDev with now := 0 } : State).now ≤ (gateDev.core 127).gateAt
    ∧ gives (exec (.powerWake (.core 127)) { gateDev with now := 0 }) (fun t => (t.core 127).imem == [img [0]]) = true
    ∧ gives (exec (.powerWake (.core 127)) gateDev) (fun t => (t.core 127).imem == []) = true
    ∧ gives (exec (.clusterGate 31) gateDev) (fun t => (t.cluster 31).gated) = true
    ∧ gives (exec (.powerWake (.core 127)) gateDev) (fun t => !(t.core 127).gated) = true
    ∧ gives (exec (.hbmSelfRefresh 7) gateDev) (fun t => (t.stack 7).selfRefresh) = true := by decide +kernel

/-! MemoryInvariant, StructureInvariant -/

/-- A device whose next turn is the S engine of core 0, which stores. -/
def turnDev : State := { dev [0x23000000] id with agenda := [.engine 0 .s], home := [(5, 1#8)] }
theorem witness_invariants : turnDev.memWf = true ∧ turnDev.shape = true ∧ turnDev.latchHolds = true
    ∧ gives (step turnDev) (fun t => t.memWf && t.shape && t.latchHolds && (t.strand 0).halted) = true := by decide +kernel

end Sys2Proof.Tests
end

