-- ==== Sys2Proof/Tests/Slice0.lean ====
section
/-! SUPPORT. Tests of well-formedness and of decoding on words that the spec writes out, and single steps whose results the
spec gives. -/

set_option Elab.async false

namespace Sys2Proof.Tests

open Sys2Proof.Machine

/-! Well-formedness: one ill-formed term for each check -/

/-- No term of a list is well formed. -/
def ill (l : List Instr) : Bool := l.all (fun i => !i.wellFormed)

/-! Fields out of range. -/

theorem test_illFormed_field0 : ill
    [.alu .add 32 4 5 .always, .alu .add 3 32 5 .always, .alu .add 3 4 32 .always, .alu .add 3 4 5 (.cond 4 0),
     .muldiv .remu 32 16 8 .always, .muldiv .remu 31 32 8 .always, .muldiv .remu 31 16 32 .always,
     .muldiv .remu 31 16 8 (.cond 4 0), .addi 32 2 0x3FFF, .addi 2 32 0x3FFF, .addi 2 2 16384, .andi 32 30 0x2001,
     .andi 1 32 0x2001, .andi 1 30 16384, .ori 32 1 0x1234, .ori 1 32 0x1234, .ori 1 1 16384, .xori 32 15 0x1FFE,
     .xori 16 32 0x1FFE, .xori 16 15 16384, .shli 32 9 63, .shli 5 32 63, .shli 5 9 64, .shri 32 10 33, .shri 6 32 33,
     .shri 6 10 64, .srai 32 11 1, .srai 7 32 1, .srai 7 11 64, .lui 32 4, .lui 27 524288, .luh 32 0x3F80, .luh 1 524288,
     .cmp .ltu 4 17 30 (.cond 1 1), .cmp .ltu 3 32 30 (.cond 1 1), .cmp .ltu 3 17 32 (.cond 1 1),
     .cmp .ltu 3 17 30 (.cond 4 0), .cmpi .ne 4 2 0, .cmpi .ne 0 32 0, .cmpi .ne 0 2 16384, .lea 32 2 3 3 .always] = true := by decide +kernel

theorem test_illFormed_field1 : ill
    [.lea 1 32 3 3 .always, .lea 1 2 32 3 .always, .lea 1 2 3 4 .always, .lea 1 2 3 3 (.cond 4 0), .ctos 32 (.cond 3 0),
     .ctos 29 (.cond 4 0), .stoc 32 .always, .stoc 22 (.cond 4 0), .ld 32 5 3 .word 4, .ld 4 32 3 .word 4,
     .ld 4 5 16 .word 4, .ld 4 5 3 .word 256, .lds 32 8 15 .half 0xFF, .lds 9 32 15 .half 0xFF, .lds 9 8 16 .half 0xFF,
     .lds 9 8 15 .half 256, .st 32 1 8 .dbl 0x80, .st 30 32 8 .dbl 0x80, .st 30 1 16 .dbl 0x80, .st 30 1 8 .dbl 256,
     .lda 32 28 0 .device .dbl 0, .lda 30 32 0 .device .dbl 0, .lda 30 28 16 .device .dbl 0,
     .lda 30 28 0 .device .dbl 32, .stl 32 28 0 .device .dbl 0, .stl 18 32 0 .device .dbl 0,
     .stl 18 28 16 .device .dbl 0, .stl 18 28 0 .device .dbl 32, .amo .swap 32 1 8 .device .dbl,
     .amo .swap 0 32 8 .device .dbl, .amo .swap 0 1 32 .device .dbl, .cas 32 1 4 .core .word, .cas 3 32 4 .core .word,
     .cas 3 1 32 .core .word, .fence .rel .stack 65536, .cmaint .clean .slice 32 3 .always,
     .cmaint .clean .slice 2 32 .always, .cmaint .clean .slice 2 3 (.cond 4 0), .waita .ge .dbl 32 1 2 .always,
     .waita .ge .dbl 6 32 2 .always, .waita .ge .dbl 6 1 32 .always] = true := by decide +kernel

theorem test_illFormed_field2 : ill
    [.waita .ge .dbl 6 1 2 (.cond 4 0), .barArrive 32 1 .always, .barArrive 3 32 .always, .barArrive 3 1 (.cond 4 0),
     .barExpect 32 2 .always, .barExpect 1 32 .always, .barExpect 1 2 (.cond 4 0), .barWait 32 3 .always,
     .barWait 1 32 .always, .barWait 1 3 (.cond 4 0), .barArriveExpect 32 1 2 .always, .barArriveExpect 3 32 2 .always,
     .barArriveExpect 3 1 32 .always, .barArriveExpect 3 1 2 (.cond 4 0), .fput 32 2 .always, .fput 1 32 .always,
     .fput 1 2 (.cond 4 0), .fget 32 1 .always, .fget 3 32 .always, .fget 3 1 (.cond 4 0), .fpeek 32 1 .always,
     .fpeek 3 32 .always, .fpeek 3 1 (.cond 4 0), .ptg 8 1, .ptg 1 2097152, .xfer 8 0 0 0 0 1, .xfer 1 2 0 0 0 1,
     .xfer 1 0 2 0 0 1, .xfer 1 0 0 4 0 1, .xfer 1 0 0 0 2 1, .xfer 1 0 0 0 0 8, .trap 32 0x40001, .trap 21 524288,
     .wait 256, .evwait (.one 32) .all, .evsig (.one 32), .evclr (.one 32), .qpush 4 5, .qpush 0 32, .qpop 4 7,
     .qpop 1 32] = true := by decide +kernel

theorem test_illFormed_field3 : ill
    [.fpush 32, .pset 4 9, .pset 2 32, .qmark 16, .sqdrain 2, .talloc .c16 32 2 3 .always, .talloc .c16 4 32 3 .always,
     .talloc .c16 4 2 32 .always, .talloc .c16 4 2 3 (.cond 4 0), .tseal 32 .always, .tseal 4 (.cond 4 0),
     .tread 32 4 .always, .tread 5 32 .always, .tread 5 4 (.cond 4 0), .tret 32 .always, .tret 4 (.cond 4 0),
     .spawn 32 .always, .spawn 5 (.cond 4 0), .join 32 1 .always, .join 6 32 .always, .join 6 1 (.cond 4 0),
     .sysrd 32 0xF00, .sysrd 3 4096, .syswr 32 0x714, .syswr 5 4096, .psnap 32 2 .always, .psnap 6 32 .always,
     .psnap 6 2 (.cond 4 0), .prel 32 .always, .prel 2 (.cond 4 0), .vadd (.reg 32) (.reg 2) (.port 0) .fp32 0 0,
     .vadd (.reg 1) (.reg 32) (.port 0) .fp32 0 0, .vadd (.reg 1) (.reg 2) (.reg 32) .fp32 0 0,
     .vadd (.reg 1) (.reg 2) (.port 0) .fp32 2 0, .vadd (.reg 1) (.reg 2) (.port 0) .fp32 0 2,
     .vsub (.reg 32) .zero (.reg 2) .i32 0 0, .vsub (.reg 4) (.reg 32) (.reg 2) .i32 0 0,
     .vsub (.reg 4) .zero (.reg 32) .i32 0 0, .vsub (.reg 4) .zero (.reg 2) .i32 2 0,
     .vsub (.reg 4) .zero (.reg 2) .i32 0 2, .vmul (.reg 32) (.port 2) (.port 1) .fp32 0 0] = true := by decide +kernel

theorem test_illFormed_field4 : ill
    [.vmul (.reg 1) (.reg 32) (.port 1) .fp32 0 0, .vmul (.reg 1) (.port 2) (.reg 32) .fp32 0 0,
     .vmul (.reg 1) (.port 2) (.port 1) .fp32 2 0, .vmul (.reg 1) (.port 2) (.port 1) .fp32 0 2,
     .vfma (.reg 32) (.port 0) (.port 1) .fp32 0 0, .vfma (.reg 6) (.reg 32) (.port 1) .fp32 0 0,
     .vfma (.reg 6) (.port 0) (.reg 32) .fp32 0 0, .vfma (.reg 6) (.port 0) (.port 1) .fp32 2 0,
     .vfma (.reg 6) (.port 0) (.port 1) .fp32 0 2, .vfnma (.reg 32) (.reg 30) (.reg 29) .e5m2 1 0,
     .vfnma (.reg 31) (.reg 32) (.reg 29) .e5m2 1 0, .vfnma (.reg 31) (.reg 30) (.reg 32) .e5m2 1 0,
     .vfnma (.reg 31) (.reg 30) (.reg 29) .e5m2 2 0, .vfnma (.reg 31) (.reg 30) (.reg 29) .e5m2 1 2,
     .vmin (.reg 32) (.reg 1) (.reg 7) .fp32 0, .vmin (.reg 1) (.reg 32) (.reg 7) .fp32 0,
     .vmin (.reg 1) (.reg 1) (.reg 32) .fp32 0, .vmin (.reg 1) (.reg 1) (.reg 7) .fp32 2,
     .vmax (.reg 32) (.port 0) (.reg 6) .fp32 0, .vmax (.reg 1) (.reg 32) (.reg 6) .fp32 0,
     .vmax (.reg 1) (.port 0) (.reg 32) .fp32 0, .vmax (.reg 1) (.port 0) (.reg 6) .fp32 2,
     .vun .clz (.reg 32) (.reg 4) .i16, .vun .clz (.port 1) (.reg 32) .i16, .vlog .or (.reg 32) .zero .q .i32,
     .vlog .or (.reg 6) (.reg 32) .q .i32, .vlog .or (.reg 6) .zero (.reg 32) .i32,
     .vsh .sra (.reg 32) (.reg 3) (.reg 5) .i8, .vsh .sra (.reg 2) (.reg 32) (.reg 5) .i8,
     .vsh .sra (.reg 2) (.reg 3) (.reg 32) .i8, .vaddi (.reg 32) (.reg 1) 1, .vaddi (.reg 1) (.reg 32) 1,
     .vaddi (.reg 1) (.reg 1) 4096, .vmulw (.reg 32) (.reg 9) (.reg 10) .i16 1,
     .vmulw (.reg 8) (.reg 32) (.reg 10) .i16 1, .vmulw (.reg 8) (.reg 9) (.reg 32) .i16 1,
     .vmulw (.reg 8) (.reg 9) (.reg 10) .i16 2, .vaddw (.reg 32) (.reg 9) (.reg 10) .i8 1 1,
     .vaddw (.reg 8) (.reg 32) (.reg 10) .i8 1 1, .vaddw (.reg 8) (.reg 9) (.reg 32) .i8 1 1,
     .vaddw (.reg 8) (.reg 9) (.reg 10) .i8 2 1] = true := by decide +kernel

theorem test_illFormed_field5 : ill
    [.vaddw (.reg 8) (.reg 9) (.reg 10) .i8 1 2, .vnarr (.reg 32) (.reg 8) .e5m2 1 0,
     .vnarr (.reg 6) (.reg 32) .e5m2 1 0, .vnarr (.reg 6) (.reg 8) .e5m2 2 0, .vnarr (.reg 6) (.reg 8) .e5m2 1 2,
     .vcmp .gt 2 (.reg 2) .zero .i32, .vcmp .gt 0 (.reg 32) .zero .i32, .vcmp .gt 0 (.reg 2) (.reg 32) .i32, .vvote 8 1,
     .vvote 1 2, .vsel (.reg 32) (.reg 2) (.reg 3) .fp16, .vsel (.reg 1) (.reg 32) (.reg 3) .fp16,
     .vsel (.reg 1) (.reg 2) (.reg 32) .fp16, .vbq 2 0x1FFFFA, .vbq 1 2097152,
     .vcvt (.reg 32) (.reg 3) .rdn .fp32 .i8 1 1, .vcvt (.reg 2) (.reg 32) .rdn .fp32 .i8 1 1,
     .vcvt (.reg 2) (.reg 3) .rdn .fp32 .i8 2 1, .vcvt (.reg 2) (.reg 3) .rdn .fp32 .i8 1 2,
     .vquant (.reg 32) (.reg 4) .q .e4m3 0, .vquant (.reg 1) (.reg 32) .q .e4m3 0,
     .vquant (.reg 1) (.reg 4) (.reg 32) .e4m3 0, .vquant (.reg 1) (.reg 4) .q .e4m3 2,
     .vdeq (.reg 32) (.reg 2) (.reg 3) .e5m2, .vdeq (.reg 1) (.reg 32) (.reg 3) .e5m2,
     .vdeq (.reg 1) (.reg 2) (.reg 32) .e5m2, .vrint (.reg 32) (.reg 1) .fp32 .rne, .vrint (.reg 2) (.reg 32) .fp32 .rne,
     .vexp2f (.reg 32) (.reg 3), .vexp2f (.reg 4) (.reg 32), .vscaleb (.reg 32) (.reg 4) (.reg 2),
     .vscaleb (.port 1) (.reg 32) (.reg 2), .vscaleb (.port 1) (.reg 4) (.reg 32), .vrcp (.reg 32) (.port 3) .fp32,
     .vrcp (.reg 19) (.reg 32) .fp32, .vrsq (.reg 32) (.reg 2) .fp32, .vrsq (.reg 1) (.reg 32) .fp32,
     .vred .max (.reg 32) (.reg 3) .fp32, .vred .max (.reg 4) (.reg 32) .fp32, .vtopk (.reg 32) (.reg 3) .q .fp32,
     .vtopk (.port 0) (.reg 32) .q .fp32] = true := by decide +kernel

theorem test_illFormed_field6 : ill
    [.vtopk (.port 0) (.reg 3) (.reg 32) .fp32, .vperm (.reg 32) (.reg 2) (.reg 3) .e4m3,
     .vperm (.reg 1) (.reg 32) (.reg 3) .e4m3, .vperm (.reg 1) (.reg 2) (.reg 32) .e4m3,
     .vshuf (.reg 32) (.reg 12) (.reg 13) .fp32, .vshuf (.reg 16) (.reg 32) (.reg 13) .fp32,
     .vshuf (.reg 16) (.reg 12) (.reg 32) .fp32, .vbcast (.reg 32) (.reg 4) .w32 0, .vbcast (.reg 5) (.reg 32) .w32 0,
     .vbcast (.reg 5) (.reg 4) .w32 128, .viota (.reg 32) 0, .viota (.reg 18) 4096, .vslide (.reg 32) (.reg 6) .w16 0xFF,
     .vslide (.reg 7) (.reg 32) .w16 0xFF, .vslide (.reg 7) (.reg 6) .w16 256, .vtr (.reg 32) 5 .adiag 63 none .rne,
     .vtr (.port 1) 8 .adiag 63 none .rne, .vtr (.port 1) 5 .adiag 64 none .rne, .vtw (.reg 32) 6 .col 32 none .rne,
     .vtw (.port 0) 8 .col 32 none .rne, .vtw (.port 0) 6 .col 64 none .rne, .vqpush 2 (.reg 3), .vqpush 0 (.reg 32),
     .vwait 256, .vamo .add (.reg 32) (.reg 2) 1 0 0 .i32, .vamo .add (.reg 3) (.reg 32) 1 0 0 .i32,
     .vamo .add (.reg 3) (.reg 2) 8 0 0 .i32, .vamo .add (.reg 3) (.reg 2) 1 4 0 .i32,
     .vamo .add (.reg 3) (.reg 2) 1 0 2 .i32, .vgath (.reg 32) (.reg 2) 7 3 1 .fp32,
     .vgath (.reg 1) (.reg 32) 7 3 1 .fp32, .vgath (.reg 1) (.reg 2) 8 3 1 .fp32, .vgath (.reg 1) (.reg 2) 7 4 1 .fp32,
     .vgath (.reg 1) (.reg 2) 7 3 2 .fp32, .vscat (.reg 32) (.reg 2) 4 1 1 .i32, .vscat (.reg 1) (.reg 32) 4 1 1 .i32,
     .vscat (.reg 1) (.reg 2) 8 1 1 .i32, .vscat (.reg 1) (.reg 2) 4 4 1 .i32, .vscat (.reg 1) (.reg 2) 4 1 2 .i32,
     .tcfg 8 1 .fp32, .tcfg 5 2 .fp32] = true := by decide +kernel

theorem test_illFormed_field7 : ill
    [.tzero 8, .tld 8 .row 0 1, .tld 0 .row 16 1, .tld 0 .row 0 8, .tst 8 .row 0 3, .tst 1 .row 16 3, .tst 1 .row 0 8,
     .tmov 8 .col 2 .row, .tmov 3 .col 8 .row, .tscal 8 .row 4 .row, .tscal 5 .row 8 .row, .tadd 8 .col 6 .diag 5 .adiag,
     .tadd 7 .col 8 .diag 5 .adiag, .tadd 7 .col 6 .diag 8 .adiag, .mset 4 53 1, .mset 1 64 1, .mset 1 53 65536,
     .msetq 4 6, .msetq 1 64, .missue 4 1, .missue 1 2, .mwait 256, .mbq 2 0x1FFFF1, .mbq 1 2097152, .mbond 16 0x4001,
     .mbond 0 65536, .kperm 2 1, .kperm 0 2, .cset 4 2 2, .cset 2 64 2, .cset 2 2 65536, .csetq 4 10, .csetq 0 64,
     .cissue 4 1, .cissue 2 2, .ccode 16, .cwait 256, .cbq 2 0x75, .cbq 1 2097152, .cmlist 64 1, .cmlist 0 8] = true := by decide +kernel

/-! Values that the encodings reserve. -/

theorem test_illFormed_value0 : ill
    [.alu .clz 1 2 3 .always, .alu .popc 1 2 1 .always, .lds 1 2 0 .dbl 0, .amo .fadd32 1 2 3 .core .dbl,
     .fence .full .core 0, .xfer 1 0 1 1 0 0, .xfer 1 0 1 0 1 0, .qpush 3 1, .qpop 3 1, .qmark 0] = true := by decide +kernel

theorem test_illFormed_value1 : ill
    [.vadd (.reg 1) (.reg 2) (.reg 3) .fp32 0 1, .vadd (.reg 1) (.reg 2) (.reg 3) .bf16 1 0,
     .vsub (.reg 1) (.reg 2) (.reg 3) .fp16 0 1, .vsub (.reg 1) (.reg 2) (.reg 3) .e4m3 1 0,
     .vmul (.reg 1) (.reg 2) (.reg 3) .e5m2 0 1, .vmul (.reg 1) (.reg 2) (.reg 3) .fp32 1 0,
     .vfma (.reg 1) (.reg 2) (.reg 3) .fp32 0 1, .vfma (.reg 1) (.reg 2) (.reg 3) .fp32 1 0,
     .vfma (.port 1) (.reg 2) (.reg 3) .fp32 0 0, .vfnma (.reg 1) (.reg 2) (.reg 3) .fp32 0 1,
     .vfnma (.reg 1) (.reg 2) (.reg 3) .fp16 1 0, .vfnma (.port 1) (.reg 2) (.reg 3) .i8 0 0,
     .vmin (.reg 1) (.reg 2) (.reg 3) .fp32 1, .vmax (.reg 1) (.reg 2) (.reg 3) .bf16 1,
     .vun .clz (.reg 1) (.reg 2) .fp32, .vun .not (.reg 1) (.reg 2) .e4m3, .vsh .shl (.reg 1) (.reg 2) (.reg 3) .bf16,
     .vmulw (.reg 2) (.reg 4) (.reg 6) .bf16 1, .vmulw (.reg 2) (.reg 4) (.reg 6) .i32 0] = true := by decide +kernel

theorem test_illFormed_value2 : ill
    [.vaddw (.reg 2) (.reg 4) (.reg 6) .fp16 0 1, .vaddw (.reg 2) (.reg 4) (.reg 6) .e5m2 1 0,
     .vaddw (.reg 2) (.reg 4) (.reg 6) .fp32 0 0, .vnarr (.reg 2) (.reg 4) .bf16 0 1, .vnarr (.reg 2) (.reg 4) .fp16 1 0,
     .vnarr (.reg 2) (.reg 4) .i32 0 0, .vcmp .lt 1 (.reg 1) (.reg 2) .fp32, .vvote 0 0,
     .vcvt (.reg 1) (.reg 2) .rne .fp32 .bf16 0 1, .vcvt (.reg 1) (.reg 2) .rne .i32 .fp16 1 0,
     .vquant (.reg 1) (.reg 2) (.reg 3) .bf16 0, .vquant (.reg 1) (.reg 2) (.reg 3) .e4m3 1,
     .vdeq (.reg 1) (.reg 2) (.reg 3) .fp32, .vrint (.reg 1) (.reg 2) .i32 .rne, .vrcp (.reg 1) (.reg 2) .i32,
     .vrsq (.reg 1) (.reg 2) .e4m3, .vshuf (.port 0) (.reg 2) (.reg 3) .i8, .vbcast (.reg 1) (.reg 2) .w32 32,
     .vbcast (.reg 1) (.reg 2) .w16 64, .vamo .add (.reg 1) (.reg 2) 0 0 0 .fp32,
     .vamo .fadd (.reg 1) (.reg 2) 0 0 0 .i32, .vgath (.port 1) (.reg 2) 0 0 0 .i32, .msetq 0 61, .csetq 0 61] = true := by decide +kernel

/-! Decoding: a word for every instruction of the opcode map, from the spec's examples where it has one, else composed by the
layouts of R54 to R70 -/

/-- A word decodes to an instruction, which encodes to the word. -/
def reads (w : Nat) (i : Instr) : Bool := decide (decodeTableWord 32 w = some i) && encode i == w

/-- Scalar arithmetic, comparisons and immediates. -/
theorem test_decode_scalar :
    reads 0x00000000 (.nop) = true
    ∧ reads 0x01190A00 (.alu .add 3 4 5 .always) = true
    ∧ reads 0x01318E1D (.alu .sub 6 6 7 (.cond 2 1)) = true
    ∧ reads 0x0150000A (.alu .add 10 0 0 (.cond 1 0)) = true
    ∧ reads 0x02FC1060 (.muldiv .remu 31 16 8 .always) = true
    ∧ reads 0x0310BFFF (.addi 2 2 0x3FFF) = true
    ∧ reads 0x040FA001 (.andi 1 30 0x2001) = true
    ∧ reads 0x05085234 (.ori 1 1 0x1234) = true
    ∧ reads 0x0683DFFE (.xori 16 15 0x1FFE) = true
    ∧ reads 0x072A403F (.shli 5 9 63) = true
    ∧ reads 0x08328021 (.shri 6 10 33) = true
    ∧ reads 0x093AC001 (.srai 7 11 1) = true
    ∧ reads 0x0AD80004 (.lui 27 4) = true
    ∧ reads 0x0B083F80 (.luh 1 0x3F80) = true
    ∧ reads 0x0C1C7C4B (.cmp .ltu 3 17 30 (.cond 1 1)) = true
    ∧ reads 0x0D208000 (.cmpi .ne 0 2 0) = true
    ∧ reads 0x0E088630 (.lea 1 2 3 3 .always) = true
    ∧ reads 0x0FE8000E (.ctos 29 (.cond 3 0)) = true
    ∧ reads 0x0F058010 (.stoc 22 .always) = true := by
  decide +kernel

/-- Loads, stores, atomics and fences. -/
theorem test_decode_memory :
    reads 0x10214E04 (.ld 4 5 3 .word 4) = true
    ∧ reads 0x114A3DFF (.lds 9 8 15 .half 0xFF) = true
    ∧ reads 0x12F06380 (.st 30 1 8 .dbl 0x80) = true
    ∧ reads 0x13F701E0 (.lda 30 28 0 .device .dbl 0) = true
    ∧ reads 0x149701E0 (.stl 18 28 0 .device .dbl 0) = true
    ∧ reads 0x1500510E (.amo .swap 0 1 8 .device .dbl) = true
    ∧ reads 0x15184400 (.amo .add 3 1 2 .core .word) = true
    ∧ reads 0x16184800 (.cas 3 1 4 .core .word) = true
    ∧ reads 0x17000650 (.fence .rel .stack 6) = true
    ∧ reads 0x17FFFF60 (.fence .full .device 0xFFFF) = true
    ∧ reads 0x18008640 (.cmaint .clean .slice 2 3 .always) = true := by
  decide +kernel

/-- Barriers, waits, futures and events. -/
theorem test_decode_sync :
    reads 0x193044B0 (.waita .ge .dbl 6 1 2 .always) = true
    ∧ reads 0x1A184000 (.barArrive 3 1 .always) = true
    ∧ reads 0x1A004410 (.barExpect 1 2 .always) = true
    ∧ reads 0x1A004620 (.barWait 1 3 .always) = true
    ∧ reads 0x1A184430 (.barArriveExpect 3 1 2 .always) = true
    ∧ reads 0x1B004400 (.fput 1 2 .always) = true
    ∧ reads 0x1B184010 (.fget 3 1 .always) = true
    ∧ reads 0x1B184020 (.fpeek 3 1 .always) = true
    ∧ reads 0x24080000 (.wait 8) = true
    ∧ reads 0x25013000 (.evwait (.mask 4) .all) = true
    ∧ reads 0x26280000 (.evsig (.one 5)) = true
    ∧ reads 0x27F80000 (.evclr (.one 31)) = true := by
  decide +kernel

/-- Control flow, queues, ports and tasks. -/
theorem test_decode_control :
    reads 0x20200001 (.ptg 1 1) = true
    ∧ reads 0x21201000 (.xfer 1 0 0 0 0 1) = true
    ∧ reads 0x21684000 (.xfer 3 0 1 0 0 4) = true
    ∧ reads 0x21A60000 (.xfer 5 0 0 3 0 0) = true
    ∧ reads 0x22AC0001 (.trap 21 0x40001) = true
    ∧ reads 0x23000000 (.halt) = true
    ∧ reads 0x28014000 (.qpush 0 5) = true
    ∧ reads 0x28008200 (.qpush 2 2) = true
    ∧ reads 0x29380100 (.qpop 1 7) = true
    ∧ reads 0x2A010000 (.fpush 4) = true
    ∧ reads 0x2B024200 (.pset 2 9) = true
    ∧ reads 0x2C000100 (.qmark 1) = true
    ∧ reads 0x2D000100 (.sqdrain 1) = true
    ∧ reads 0x30208610 (.talloc .c16 4 2 3 .always) = true
    ∧ reads 0x31010000 (.tseal 4 .always) = true
    ∧ reads 0x32290000 (.tread 5 4 .always) = true
    ∧ reads 0x33010000 (.tret 4 .always) = true
    ∧ reads 0x34014000 (.spawn 5 .always) = true
    ∧ reads 0x35304000 (.join 6 1 .always) = true
    ∧ reads 0x36000000 (.commit) = true
    ∧ reads 0x37000000 (.yield) = true
    ∧ reads 0x38180F00 (.sysrd 3 0xF00) = true
    ∧ reads 0x39014714 (.syswr 5 0x714) = true
    ∧ reads 0x3A308000 (.psnap 6 2 .always) = true
    ∧ reads 0x3B008000 (.prel 2 .always) = true := by
  decide +kernel

/-- Vector arithmetic. -/
theorem test_decode_lanes :
    reads 0x40000000 (.vnop) = true
    ∧ reads 0x41042828 (.vadd (.reg 1) (.reg 2) (.port 0) .fp32 0 0) = true
    ∧ reads 0x41065928 (.vadd (.reg 1) .zero .q .fp32 0 0) = true
    ∧ reads 0x42125090 (.vsub (.reg 4) .zero (.reg 2) .i32 0 0) = true
    ∧ reads 0x43062868 (.vmul (.reg 1) (.port 2) (.port 1) .fp32 0 0) = true
    ∧ reads 0x441A0868 (.vfma (.reg 6) (.port 0) (.port 1) .fp32 0 0) = true
    ∧ reads 0x457DE77A (.vfnma (.reg 31) (.reg 30) (.reg 29) .e5m2 1 0) = true
    ∧ reads 0x460411E8 (.vmin (.reg 1) (.reg 1) (.reg 7) .fp32 0) = true
    ∧ reads 0x470601A8 (.vmax (.reg 1) (.port 0) (.reg 6) .fp32 0) = true
    ∧ reads 0x4884400B (.vun .clz (.port 1) (.reg 4) .i16) = true
    ∧ reads 0x491A5911 (.vlog .or (.reg 6) .zero .q .i32) = true
    ∧ reads 0x4A083142 (.vsh .sra (.reg 2) (.reg 3) (.reg 5) .i8) = true
    ∧ reads 0x4B041001 (.vaddi (.reg 1) (.reg 1) 1) = true
    ∧ reads 0x4C209289 (.vmulw (.reg 8) (.reg 9) (.reg 10) .i16 1) = true
    ∧ reads 0x4D209283 (.vaddw (.reg 8) (.reg 9) (.reg 10) .i8 1 1) = true
    ∧ reads 0x4E18803A (.vnarr (.reg 6) (.reg 8) .e5m2 1 0) = true
    ∧ reads 0x50002955 (.vcmp .gt 0 (.reg 2) .zero .i32) = true
    ∧ reads 0x51000000 (.velse) = true
    ∧ reads 0x52000000 (.vend) = true
    ∧ reads 0x53040001 (.vvote 1 1) = true
    ∧ reads 0x540420E0 (.vsel (.reg 1) (.reg 2) (.reg 3) .fp16) = true
    ∧ reads 0x559FFFFA (.vbq 1 0x1FFFFA) = true := by
  decide +kernel

/-- Vector conversions, reductions, permutations and memory. -/
theorem test_decode_convert :
    reads 0x58083543 (.vcvt (.reg 2) (.reg 3) .rdn .fp32 .i8 1 1) = true
    ∧ reads 0x59044930 (.vquant (.reg 1) (.reg 4) .q .e4m3 0) = true
    ∧ reads 0x5A0420F8 (.vdeq (.reg 1) (.reg 2) (.reg 3) .e5m2) = true
    ∧ reads 0x5B081028 (.vrint (.reg 2) (.reg 1) .fp32 .rne) = true
    ∧ reads 0x5C103028 (.vexp2f (.reg 4) (.reg 3)) = true
    ∧ reads 0x5D8440A8 (.vscaleb (.port 1) (.reg 4) (.reg 2)) = true
    ∧ reads 0x5E4E3028 (.vrcp (.reg 19) (.port 3) .fp32) = true
    ∧ reads 0x5F042028 (.vrsq (.reg 1) (.reg 2) .fp32) = true
    ∧ reads 0x64103029 (.vred .max (.reg 4) (.reg 3) .fp32) = true
    ∧ reads 0x65803928 (.vtopk (.port 0) (.reg 3) .q .fp32) = true
    ∧ reads 0x660420F0 (.vperm (.reg 1) (.reg 2) (.reg 3) .e4m3) = true
    ∧ reads 0x6740C368 (.vshuf (.reg 16) (.reg 12) (.reg 13) .fp32) = true
    ∧ reads 0x68144800 (.vbcast (.reg 5) (.reg 4) .w32 0) = true
    ∧ reads 0x69480000 (.viota (.reg 18) 0) = true
    ∧ reads 0x6A1C64FF (.vslide (.reg 7) (.reg 6) .w16 0xFF) = true
    ∧ reads 0x7086FF80 (.vtr (.port 1) 5 .adiag 63 none .rne) = true
    ∧ reads 0x71833000 (.vtw (.port 0) 6 .col 32 none .rne) = true
    ∧ reads 0x74003000 (.vqpush 0 (.reg 3)) = true
    ∧ reads 0x75000000 (.vqdrain) = true
    ∧ reads 0x78020000 (.vwait 2) = true
    ∧ reads 0x790C2210 (.vamo .add (.reg 3) (.reg 2) 1 0 0 .i32) = true
    ∧ reads 0x79452729 (.vamo .fadd (.reg 17) (.reg 18) 3 2 0 .fp32) = true
    ∧ reads 0x7A042FE8 (.vgath (.reg 1) (.reg 2) 7 3 1 .fp32) = true
    ∧ reads 0x7B0428D0 (.vscat (.reg 1) (.reg 2) 4 1 1 .i32) = true := by
  decide +kernel

/-- Tile words, leases, Girder commands and Keystone. -/
theorem test_decode_tiles :
    reads 0x80000000 (.mnop) = true
    ∧ reads 0x81A00018 (.tcfg 5 1 .fp32) = true
    ∧ reads 0x82C00000 (.tzero 6) = true
    ∧ reads 0x83000001 (.tld 0 .row 0 1) = true
    ∧ reads 0x84010003 (.tst 1 .row 0 3) = true
    ∧ reads 0x856A0000 (.tmov 3 .col 2 .row) = true
    ∧ reads 0x86A40000 (.tscal 5 .row 4 .row) = true
    ∧ reads 0x87EEAE00 (.tadd 7 .col 6 .diag 5 .adiag) = true
    ∧ reads 0x88000000 (.mlease) = true
    ∧ reads 0x89000000 (.mfree) = true
    ∧ reads 0x8A000000 (.mmark) = true
    ∧ reads 0x8B750001 (.mset 1 53 1) = true
    ∧ reads 0x8C460000 (.msetq 1 6) = true
    ∧ reads 0x8D500000 (.missue 1 1) = true
    ∧ reads 0x8E020000 (.mwait 2) = true
    ∧ reads 0x8F9FFFF1 (.mbq 1 0x1FFFF1) = true
    ∧ reads 0x90000000 (.mqdrain) = true
    ∧ reads 0x91004001 (.mbond 0 0x4001) = true
    ∧ reads 0x91100002 (.mbond 1 2) = true
    ∧ reads 0x92000000 (.morder) = true
    ∧ reads 0x98000000 (.kload) = true
    ∧ reads 0x99000001 (.kperm 0 1) = true
    ∧ reads 0x99000002 (.kperm 1 0) = true := by
  decide +kernel

/-- Words of the copy engine. -/
theorem test_decode_copies :
    reads 0xC0000000 (.cnop) = true
    ∧ reads 0xC1820002 (.cset 2 2 2) = true
    ∧ reads 0xC20A0000 (.csetq 0 10) = true
    ∧ reads 0xC3900000 (.cissue 2 1) = true
    ∧ reads 0xC4080000 (.ccode 2) = true
    ∧ reads 0xC5810000 (.cwait 0x81) = true
    ∧ reads 0xC6800075 (.cbq 1 0x75) = true
    ∧ reads 0xC7000000 (.cqdrain) = true
    ∧ reads 0xC8008000 (.cmlist 0 1) = true := by
  decide +kernel

/-- Words that R52 to R70 refuse: an unassigned function, a nonzero must-be-zero field, an unallocated opcode of each engine,
and the fields of an absent guard. -/
theorem test_decode_refused : [0x01190B10, 0x00000001, 0x1C000000, 0x4F000000, 0x93000000, 0xC9000000, 0x01190A02].all
    (fun w => (decodeTableWord 32 w).isNone) = true := by decide +kernel

/-! Single steps, with the results that the spec's examples state -/

/-- ADDI of -1 to 3 gives 2 and moves S on (R57, R123). -/
theorem test_addi : gives (exec (.addi 2 2 0x3FFF) (dev [0, 0] (setS 2 3))) (fun t => t.getS 2 == 2#64 && t.st.es.pc == 4) = true := by
  decide +kernel
/-- A word with s0 as its destination writes nothing (R100). -/
theorem test_addi_s0 : gives (exec (.addi 0 0 5) (dev [0, 0] id)) (fun t => t.getS 0 == 0#64 && t.st.es.pc == 4) = true := by
  decide +kernel
/-- LUI, LUH and ORI build the address of R75: 0x7F0000001234. -/
theorem test_lui : gives (exec (.lui 1 0) (dev [0, 0] (setS 1 9))) (fun t => t.getS 1 == 0#64) = true := by decide +kernel
theorem test_luh : gives (exec (.luh 1 0x3F80) (dev [0, 0] id)) (fun t => t.getS 1 == 0x7F0000000000#64) = true := by decide +kernel
/-- A division by zero gives all ones (Table 6.2). -/
theorem test_div_zero : gives (exec (.muldiv .div 3 1 2 .always) (dev [0, 0] (setS 1 7)))
    (fun t => t.getS 3 == BitVec.allOnes 64) = true := by decide +kernel
/-- CMPI of an unequal value sets the condition (Table 4.3); a failed guard has no effect (R56). -/
theorem test_cmpi : gives (exec (.cmpi .ne 0 2 0) (dev [0, 0] (setS 2 1))) (fun t => t.st.regs.c == 1#4) = true := by
  decide +kernel
theorem test_guard : gives (exec (.alu .add 3 1 1 (.cond 2 0)) (dev [0, 0] (setS 1 7))) (fun t => t.getS 3 == 0#64 && t.st.es.pc == 4)
    = true := by decide +kernel
/-- PTG names the word at IMM21 words from itself (R91). -/
theorem test_ptg : gives (exec (.ptg 1 1) (dev [0, 0, 0] id)) (fun t => t.st.regs.b.getD 1 0 == 4) = true := by decide +kernel
/-- A store to the own scratchpad performs at once and little-endian (R3). -/
theorem test_st : gives (exec (.st 2 1 0 .half 0) (dev [0, 0] (fun t => setS 1 (spadBase + 64) (setS 2 0xABCD t))))
    (fun t => t.byteAt (.spad 0 64) == 0xCD#8 && t.byteAt (.spad 0 65) == 0xAB#8 && t.byteAt (.spad 0 66) == 0#8) = true := by
  decide +kernel
/-- An access beyond the allotment raises SCRATCH_BOUNDS (Table 6.3). -/
theorem test_st_bounds : gives (exec (.st 2 1 0 .half 0) (dev [0, 0] (setS 1 (spadBase + 4096)))) (fun t => recorded t .scratchBounds 0)
    = true := by decide +kernel
/-- vadd.i32 v1, zero, zero writes zeros into every lane (Example 4.1); vaddi adds 1 to each. -/
theorem test_vadd : gives (exec (.vadd (.reg 1) .zero .zero .i32 0 0) (dev [0x41065950, 0] (setV 1 77))) (fun t => t.st.regs.v.getD 1 0 == 0) = true := by
  decide +kernel
theorem test_vaddi : gives (exec (.vaddi (.reg 1) (.reg 1) 0xFFF) (dev [0x4B041FFF, 0] (setV 1 0))) (fun t =>
    t.st.regs.v.getD 1 0 == BitVec.allOnes 1024) = true := by decide +kernel
/-- An EVSIG of event 5 sets bit 5 (Table 5.6). -/
theorem test_evsig : gives (exec (.evsig (.one 5)) (dev [0x26280000, 0] id)) (fun t => t.st.regs.e == 0x20#32) = true := by decide +kernel
/-- A TRAP records the trap's code in the fault record and fences its context (R382, R384). -/
theorem test_trap : gives (exec (.trap 0 7) (dev [0x22000007, 0] id)) (fun t => recorded t .trap 0) = true := by decide +kernel
/-- A word that does not decode raises ILLEGAL_ENCODING when S reaches it (R52). -/
theorem test_step_illegal : gives (step { dev [0x01190B10] id with agenda := [.engine 0 .s] }) (fun t => recorded t .illegalEncoding 0)
    = true := by decide +kernel

end Sys2Proof.Tests
end

