-- ==== Sys2Proof/Tests/WitnessA.lean ====
section
/-! SUPPORT. For each statement about words, decoding and the scalar datapath: states and operands that meet its hypotheses. -/

set_option Elab.async false

namespace Sys2Proof.Tests

open Sys2Proof.Machine

/-! DecodeEncode, EncodeDecode -/

theorem witness_decodeEncode :
    (Instr.alu .sel 31 31 31 (.cond 3 1)).engine = some .s ∧ (Instr.alu .sel 31 31 31 (.cond 3 1)).wellFormed = true
    ∧ (Instr.vshuf (.reg 31) (.port 3) .zero .bf16).engine = some .v
    ∧ (Instr.vshuf (.reg 31) (.port 3) .zero .bf16).wellFormed = true
    ∧ (Instr.mset 3 63 65535).engine = some .m ∧ (Instr.mset 3 63 65535).wellFormed = true
    ∧ (Instr.cmlist 63 7).engine = some .c ∧ (Instr.cmlist 63 7).wellFormed = true := by decide +kernel

theorem witness_encodeDecode : 0x2B024200 < 2 ^ 32 ∧ decodeWord 0x2B024200 = .ok (.pset 2 9)
    ∧ decodeWord 0xC8FF8000 = .ok (.cmlist 63 7) := by decide +kernel

/-! StepRuns: addi s1, s0, 5 at the start of a text; an unallocated S word; and an event. -/

def addiText : List Nat := [0x03080005, 0x1F000000, 0]
def turnOf (pc : Nat) : State :=
  { dev addiText (fun t => { t with es := { t.es with pc := pc } }) with agenda := [.engine 0 .s], free := 7 }
def turnNow (pc : Nat) : State := { turnOf pc with agenda := [], free := 8, cur := 0 }

theorem witness_stepRuns :
    (turnOf 0).agenda = .engine 0 .s :: [] ∧ (turnNow 0).mayAct 0 .s = true ∧ (turnNow 0).pass 0 .s = .own 0 0
    ∧ ((turnNow 0).moveTo .s 0 0 1).imemUpset 0 = none
    ∧ decodeWord (lget (((turnNow 0).moveTo .s 0 0 1).text 0) 0 0) = .ok (.addi 1 0 5)
    ∧ (((turnNow 0).moveTo .s 0 0 1).regUpset (.addi 1 0 5)).isNone = true ∧ plainS (.addi 1 0 5) = true
    ∧ ((turnNow 0).core 0).trestleBad = false
    ∧ gives (step (turnOf 0)) (fun t => t.getS 1 == 5#64 && t.st.es.pc == 4) = true := by decide +kernel

theorem witness_stepRuns_illegal :
    (turnNow 4).mayAct 0 .s = true ∧ (turnNow 4).pass 0 .s = .own 4 0
    ∧ ((turnNow 4).moveTo .s 4 0 1).imemUpset 4 = none
    ∧ decodeWord (lget (((turnNow 4).moveTo .s 4 0 1).text 0) 1 0) = .error (.unallocated 0 31)
    ∧ gives (step (turnOf 4)) (fun t => recorded t .illegalEncoding 0) = true := by decide +kernel

theorem witness_stepRuns_event :
    ({ State.reset with agenda := [.event .dispatch] } : State).agenda = .event .dispatch :: []
    ∧ Instr.engine .dispatch = none := by decide +kernel

/-! ScalarWords, ConditionsAndTargets -/

theorem witness_scalarWords_functions : BitVec.intMin 64 ≠ 0#64 ∧ BitVec.allOnes 64 ≠ 0#64
    ∧ ¬ (1#64 = BitVec.intMin 64 ∧ BitVec.allOnes 64 = BitVec.allOnes 64) := by decide +kernel

def s31 : State := dev [0, 0, 0, 0] (fun t => setS 31 7 (setS 30 5 t))

theorem witness_scalarWords : s31.present = true ∧ 31 < 32 ∧ s31.guardOk (.cond 3 1) = true
    ∧ s31.guardOk (.cond 3 0) = false ∧ s31.guardOk .always = true ∧ s31.st.divAt ≤ s31.now
    ∧ gives (exec (.alu .add 1 31 30 .always) s31) (fun t => t.getS 1 == 12#64 && t.st.es.pc == 4) = true := by
  decide +kernel

theorem witness_scalarWords_reserved : (decodeWord (0x01000000 + 17 * 16)).isOk = false
    ∧ (decodeWord (0x01000000 + 16 * 16)).isOk = true ∧ (decodeWord (0x01000000 + 14 * 16 + 512)).isOk = false
    ∧ (decodeWord (0x02000000 + 7 * 16)).isOk = false ∧ (decodeWord (0x02000000 + 6 * 16)).isOk = true
    ∧ (decodeWord (0x0E000000 + 4 * 16)).isOk = false ∧ (decodeWord (0x07000000 + 64)).isOk = false := by decide +kernel

theorem witness_conditionsAndTargets : s31.present = true ∧ 3 < 4 ∧ 7 < 8 ∧ s31.guardOk .always = true
    ∧ (0 : Int) ≤ ((s31.st.eng .s).pc : Int) + 4 * sextInt 21 3
    ∧ ((s31.st.eng .s).pc : Int) + 4 * sextInt 21 3 < (4 * (s31.text s31.cur).length : Nat)
    ∧ ((s31.st.eng .s).pc : Int) + 4 * sextInt 21 0x1FFFFF < 0
    ∧ ((4 * (s31.text s31.cur).length : Nat) : Int) ≤ ((s31.st.eng .s).pc : Int) + 4 * sextInt 21 4
    ∧ gives (exec (.ptg 7 3) s31) (fun t => t.getB 7 == 12#32) = true
    ∧ gives (exec (.ptg 7 4) s31) (fun t => recorded t .illegalOperand 0) = true := by decide +kernel

/-! WaitsAndEvents, ScalarFrame -/

theorem witness_waitsAndEvents_guard : guardOf (.alu .add 1 2 3 (.cond 3 0)) = some (.cond 3 0)
    ∧ s31.guardOk (.cond 3 0) = false ∧ s31.st.commit ≠ .done := by decide +kernel

/-- Token 7 is up. -/
def tok7 : State := dev [0] (fun t => { t with regs := { t.regs with w := t.regs.w.set 7 1, e := 5#32 } })

theorem witness_waitsAndEvents_tokens : tok7.present = true ∧ tok7.keyGate.isOk = true ∧ tok7.st.ks.window = []
    ∧ (∀ j, j < 8 → bit 0x7F j = true → tok7.st.tokCount j = 0) ∧ bit 0x80 7 = true ∧ tok7.st.tokCount 7 ≠ 0 := by
  decide +kernel

theorem witness_waitsAndEvents_events : tok7.st.commit ≠ .done ∧ tok7.evMask (.mask 0) = 0#32
    ∧ tok7.st.regs.e &&& tok7.evMask (.one 2) ≠ 0#32
    ∧ tok7.st.regs.e &&& tok7.evMask (.one 2) = tok7.evMask (.one 2)
    ∧ tok7.evMask (.one 31) ≠ 0#32 ∧ tok7.st.regs.e &&& tok7.evMask (.one 31) = 0#32 := by decide +kernel

theorem witness_scalarFrame : scalarWord (.addi 1 31 5) = true ∧ s31.present = true ∧ s31.st.commit ≠ .done
    ∧ gives (exec (.addi 1 31 5) s31) (fun t => t.getS 1 == 12#64 && t.getS 31 == 7#64) = true
    ∧ scalarWord (.stoc 31 .always) = true
    ∧ gives (exec (.stoc 31 .always) s31) (fun t => t.getC 0 && t.getC 2 && !t.getC 3) = true := by decide +kernel

theorem witness_scalarFrame_targets : s31.present = true ∧ (s31.st.eng .s).slots = 0 ∧ (s31.slot2 .s).isSome = true
    ∧ (0 : Int) ≤ ((s31.st.eng .s).pc : Int) + 4 * sextInt 21 3
    ∧ ((s31.st.eng .s).pc : Int) + 4 * sextInt 21 3 < (4 * (s31.text s31.cur).length : Nat)
    ∧ gives (exec (.ptg 3 3) s31) (fun t => t.getB 3 == 12#32 && t.getB 7 == 0#32) = true
    ∧ gives (exec (.xfer 5 1 1 0 0 7) s31) (fun t => t.getB 7 == 12#32 && t.oq .v == [true] && t.getB 5 == 0#32) = true := by
  decide +kernel

end Sys2Proof.Tests
end

