-- ==== Sys2Proof/Tests/WitnessB.lean ====
section
/-! SUPPORT. For each statement about memory, signals, queues and transfers: states and operands that meet its hypotheses. -/

set_option Elab.async false

namespace Sys2Proof.Tests

open Sys2Proof.Machine

/-- A core's caches drain where none of their dirty lines belongs to a page that is withdrawn. -/
theorem drains_of {s : State} {k : Nat} (h : ∀ l ∈ (s.core k).l1 ++ (s.cluster (clusterOf k)).slice,
    l.dirty ≠ 0#128 → s.poisonedPa l.key = false) : s.drains k := fun l hl => h l (List.mem_append.2 hl)

/-! Loads, StoreBytes, ReleasesAndAcquires, Atomics, AccessFaults -/

/-- s[1] names the own scratchpad's last 16 bytes of the allotment; s[2] is 5; s[3] an address of device memory. -/
def memDev (f : Strand → Strand) : State :=
  (dev [0, 0, 0, 0] (fun t => f (setS 1 (spadBase + 4080) (setS 2 5 (setS 3 (2 ^ 36) t))))).modCore 0
    (fun c => { c with spad := [(4080, 0x81#8), (4081, 1#8)] })

theorem witness_loads : (memDev id).able ∧ (memDev id).st.tokCount 0 < 63
    ∧ (memDev id).ownAt ((memDev id).effAddr 1 8 1 8) 8 4088 ∧ (memDev id).ownAt ((memDev id).effAddr 1 5 0 4) 4 4080
    ∧ gives (exec (.lds 4 1 0 .byte 0) (memDev id)) (fun t => (t.st.rets.map (·.val)) == [2 ^ 64 - 127]) = true := by
  unfold State.able State.ownAt
  decide +kernel

def landing : State :=
  memDev (fun t => { t with rets := [{ dst := .s 4, val := 9, mask := 2 ^ 64 - 1, tok := 0 }], regs := { t.regs with w := t.regs.w.set 0 1 } })

theorem witness_loads_return : 0 < landing.cores.length ∧ (landing.strand 0).shape = true
    ∧ (landing.strand 0).rets[0]?.isSome = true
    ∧ gives (exec (.memoryReturn 0 0) landing) (fun t => (lget (t.strand 0).regs.s 4 0#64) == 9#64) = true := by
  decide +kernel

theorem witness_storeBytes : (memDev id).shape = true ∧ (memDev id).able
    ∧ (memDev id).effAddr 1 8 1 (sizeBytes .dbl) % 8 = 0
    ∧ yields ((memDev id).resolve 0 ((memDev id).effAddr 1 8 1 8) .wr) (fun x => x.1 == .spad 0 4088) = true
    ∧ gives (exec (.st 2 1 0 .dbl 1) (memDev id)) (fun t => t.byteAt (.spad 0 4088) == 5#8) = true := by
  unfold State.able
  decide +kernel

/-- A published buffer of context 0: one extent of 4096 bytes at va 2^36, backed at 2^13 and at 2^14. -/
def buf0 : PubBuf := { handle := 3, desc := ⟨2 ^ 36, 1, 4096, 2 ^ 13, 2 ^ 14, 0⟩, sel := [false], version := 0 }
def pubDev (f : Strand → Strand) : State :=
  (memDev f).modSched (fun d => { d with ctxs := lmod d.ctxs 0 (fun c => { c with bufs := [buf0] }) })

theorem witness_storeBytes_home : (pubDev id).shape = true ∧ (pubDev id).able
    ∧ yields ((pubDev id).resolve 0 ((pubDev id).effAddr 3 8 0 8) .wr) (fun x => x.1 == .mem (2 ^ 14)) = true
    ∧ gives (exec (.st 2 3 0 .dbl 0) (pubDev id)) (fun t => t.seen 0 (2 ^ 14) == 5#8 && t.seen 1 (2 ^ 14) == 0#8) = true
    ∧ (lineFind ((pubDev id).core 0).l1 (lineKey (2 ^ 14))).isSome = false
    ∧ (roomFor 8 512 0 ((pubDev id).core 0).l1).1 = none := by
  unfold State.able
  decide +kernel

/-- A plain load of the buffer's first word finds the clean line that the L1 holds of it. -/
def cleanLine : Line := { key := 2 ^ 13, cls := 0, valid := BitVec.allOnes 128, dirty := 0#128, data := 0xA5#1024 }
def loadDev : State := (pubDev id).modCore 0 (fun c => { c with l1 := [cleanLine] })
theorem witness_loads_places : loadDev.able ∧ loadDev.st.tokCount 0 < 63 ∧ loadDev.effAddr 3 8 0 8 % 8 = 0
    ∧ loadDev.effAddr 3 5 0 8 % 8 = 0
    ∧ yields (loadDev.resolve loadDev.cur (loadDev.effAddr 3 8 0 8) .rd) (fun x => x.1 == .mem (2 ^ 13)) = true
    ∧ yields (loadDev.resolve loadDev.cur (loadDev.effAddr 3 5 0 8) .rd) (fun x => x.1 == .mem (2 ^ 13)) = true
    ∧ 2 ^ 13 % 8 = 0 ∧ 2 ^ 13 < apKeyBase ∧ loadDev.loadByte 0 (.mem (2 ^ 13)) 8 0 = 0xA5#8
    ∧ gives (exec (.ld 4 3 0 .dbl 0) loadDev) (fun t => (t.st.rets.map (·.val)) == [0xA5]) = true
    ∧ gives (exec (.lda 4 3 0 .stack .dbl 0) loadDev) (fun t => (t.st.rets.map (·.val)) == [0xA5] && (t.core 0).l1 == []) = true := by
  unfold State.able
  decide +kernel

theorem witness_releases_drains : (memDev id).drains 0 := drains_of (by decide +kernel)
theorem witness_releases : (memDev id).able ∧ (memDev id).shape = true ∧ (memDev id).effAddr 1 5 1 8 % 8 = 0
    ∧ yields ((memDev id).resolve (memDev id).cur ((memDev id).effAddr 1 5 1 8) .wr) (fun x => x.1 == .spad 0 4088) = true
    ∧ gives (exec (.stl 2 1 0 .system .dbl 1) (memDev id)) (fun t => t.byteAt (.spad 0 4088) == 5#8) = true ∧ FenceKind.rel ≠ .acq ∧ FenceKind.acq ≠ .rel := by
  unfold State.able
  decide +kernel

def dirtyLine : Line := { key := 2 ^ 13, cls := 3, valid := 1#128, dirty := 1#128, data := 0x5A#1024 }
def dirtyDev : State := (memDev id).modCore 0 (fun c => { c with l1 := [dirtyLine] })

theorem witness_releases_fence : dirtyDev.able ∧ dirtyDev.shape = true ∧ dirtyDev.memWf = true
    ∧ dirtyLine ∈ (dirtyDev.core dirtyDev.cur).l1 ∧ dirtyDev.poisonedPa dirtyLine.key = false ∧ dirtyLine.dirty.getLsbD 0 = true
    ∧ gives (exec (.fence .full .device 0) dirtyDev) (fun t => mget t.home (2 ^ 13) == 0x5A#8) = true := by
  unfold State.able
  decide +kernel

theorem witness_dirtyDev_drains : dirtyDev.drains 0 := drains_of (by decide +kernel)

theorem witness_atomics_functions : 0 < 32 ∧ 2 ^ 32 - 1 < 2 ^ 32 ∧ 0x7F800000 < 0xFFC00001 % 2 ^ 31
    ∧ 0xFF800000 % 2 ^ 31 = 0x7F800000 ∧ ¬ 0x7F800000 < 1 % 2 ^ 31 ∧ 1 % 2 ^ 31 ≠ 0x7F800000
    ∧ amoFn .fadd32 32 0xFF800000 1 = 0xFF800000 ∧ amoFn .fadd32 32 0xFF800000 0x7F800000 = 0x7FC00000
    ∧ amoFn .fadd32 32 0x3F800000 0x3F800000 = 0x40000000 := by decide +kernel

theorem witness_atomics : (memDev id).able ∧ (memDev id).st.tokCount 0 < 63
    ∧ (memDev id).ownAt ((memDev id).rdS 1).toNat (wsizeBytes .dbl) 4080
    ∧ gives (exec (.amo .add 4 1 2 .core .dbl) (memDev id)) (fun t => t.own 4080 8 == 0x186) = true := by
  unfold State.able State.ownAt
  decide +kernel

theorem witness_accessFaults_align : accessOf (memDev id) (.ld 4 2 0 .dbl 0) = some (5, 8) ∧ 5 % 8 ≠ 0 := by decide +kernel
def holeDev (va : Nat) : State := dev [0] (setS 1 va)
theorem witness_accessFaults_windows :
    accessOf (holeDev (2 ^ 48)) (.ld 4 1 0 .dbl 0) = some (2 ^ 48, 8) ∧ window (2 ^ 48) = .hole
    ∧ window (spadBase + 0x80000) = .spadGap ∧ window (spadBase + 4096) = .spad none 4096
    ∧ (holeDev (spadBase + 4096)).st.allot ≤ 4096 ∧ (spadBase + 0x80000) % 8 = 0 := by decide +kernel

/-- Where a WAITA, a BAR or a FUT may not stand, and a store of S that waits. -/
theorem witness_accessFaults_objects : syncOf (holeDev (2 ^ 48)) (.fget 4 1 .always) = some (2 ^ 48, 16) ∧ 2 ^ 48 % 16 = 0
    ∧ (holeDev (2 ^ 48)).passes (.fget 4 1 .always) = true ∧ (holeDev (2 ^ 48)).st.poll = none ∧ 8 % 16 ≠ 0
    ∧ syncOf (holeDev 8) (.barArrive 4 1 .always) = some (8, 16) ∧ syncOf (holeDev (2 ^ 36)) (.barArrive 4 1 .always) = some (2 ^ 36, 16)
    ∧ window (2 ^ 36) = .translated ∧ window (spadBase + 4096) = .spad none 4096
    ∧ gives (exec (.fget 4 1 .always) (holeDev (2 ^ 48))) (fun t => recorded t .translation 0) = true
    ∧ gives (exec (.fget 4 1 .always) (holeDev (2 ^ 36))) (fun t => recorded t .permission 0) = true
    ∧ gives (exec (.fget 4 1 .always) (holeDev (spadBase + 4096))) (fun t => recorded t .scratchBounds 0) = true := by decide +kernel

/-! CacheMaintenance -/

def cmDev (flags lo n : Nat) : State :=
  dev [0, 0] (fun t => setS 1 lo (setS 2 n { t with task := { t.task with flags := flags } }))

theorem witness_cacheMaintenance : (cmDev 2 (2 ^ 36) (2 ^ 30)).able ∧ (cmDev 2 (2 ^ 36) (2 ^ 30)).shape = true
    ∧ (cmDev 2 (2 ^ 36) (2 ^ 30)).memWf = true ∧ bit (cmDev 0 0 0).st.task.flags 1 = false
    ∧ bit (cmDev 2 (2 ^ 36) (2 ^ 30)).st.task.flags 1 = true
    ∧ ((cmDev 2 0 (2 ^ 30 + 1)).rdS 2).toNat = 2 ^ 30 + 1
    ∧ ((cmDev 2 (2 ^ 36) (2 ^ 30)).rdS 2).toNat ≤ 2 ^ 30
    ∧ ((cmDev 2 (2 ^ 36) (2 ^ 30)).rdS 1).toNat + ((cmDev 2 (2 ^ 36) (2 ^ 30)).rdS 2).toNat ≤ 2 ^ 48
    ∧ ((cmDev 2 (2 ^ 48) 0).rdS 1).toNat ≤ 2 ^ 48 ∧ ((cmDev 2 (2 ^ 48) 0).rdS 2).toNat = 0
    ∧ gives (exec (.cmaint .clean .l1 1 2 .always) (cmDev 0 0 0)) (fun t => recorded t .privilege 0) = true
    ∧ gives (exec (.cmaint .clean .l1 1 2 .always) (cmDev 2 0 (2 ^ 30 + 1))) (fun t => recorded t .illegalOperand 0) = true
    ∧ 2 ^ 48 < 2 ^ 48 - 1 + 2
    ∧ gives (exec (.cmaint .clean .l1 1 2 .always) (cmDev 2 (2 ^ 48 - 1) 2)) (fun t => recorded t .translation 0) = true := by
  unfold State.able
  decide +kernel

/-- XID 0 maps va 2^36 to the frame 2^13, and the core's TLB holds the entry. -/
def pageEntry : TlbEntry := { xid := 0, vpage := 2 ^ 24, shift := 12, frame := 2 ^ 13, w := true, c := false, mig := false }
def cmPage : State :=
  { (cmDev 2 (2 ^ 36 + 1) 256).modCore 0 (fun c => { c with tlb := [pageEntry], l1 := [dirtyLine] }) with
    xlt := { xids := [(0, { root := 4096, group := 0, valid := true })] } }
theorem witness_cmPage_drains : cmPage.drains 0 := drains_of (by decide +kernel)
theorem witness_cacheMaintenance_ranges : cmPage.able ∧ cmPage.shape = true ∧ cmPage.memWf = true
    ∧ yields (cmPage.keyRanges cmPage.cur (2 ^ 36 + 1) (2 ^ 36 + 1 + 256)) (fun x => x.1 == [(2 ^ 13 + 1, 2 ^ 13 + 257)]) = true
    ∧ overlaps [(2 ^ 13 + 1, 2 ^ 13 + 257)] dirtyLine.key = true
    ∧ gives (exec (.cmaint .clean .l1 1 2 .always) cmPage) (fun t => (t.core 0).l1.map (·.dirty) == [0#128]) = true
    ∧ gives (exec (.cmaint .inv .msc 1 2 .always) cmPage) (fun t => (t.core 0).l1 == [dirtyLine]) = true := by
  unfold State.able
  decide +kernel

/-! SignalsAndBarriers, FuturesAndJoins -/

/-- s[1] names an aligned object of the own scratchpad, which holds x; s[2] is v. -/
def objDev (x v : Nat) (f : Strand → Strand) : State :=
  let s := dev [0x19004000 + 2 * 16384, 0, 0, 0] (fun t => f (setS 1 (spadBase + 64) (setS 2 v t)))
  s.modCore 0 (fun c => { c with spad := mputn c.spad 64 16 x })

theorem witness_signals : (objDev 7 7 id).able ∧ (objDev 7 7 id).shape = true
    ∧ (objDev 7 7 id).ownAt ((objDev 7 7 id).rdS 1).toNat 8 64
    ∧ relation .eq (waitaExt .eq .dbl ((objDev 7 7 id).own 64 8)) (waitaExt .eq .dbl ((objDev 7 7 id).rdS 2).toNat) = true
    ∧ relation .eq (waitaExt .eq .dbl ((objDev 7 8 id).own 64 8)) (waitaExt .eq .dbl ((objDev 7 8 id).rdS 2).toNat) = false
    ∧ gives (exec (.waita .eq .dbl 3 1 2 .always) (objDev 7 7 id)) (fun t => t.getS 3 == 7#64) = true := by
  unfold State.able State.ownAt
  decide +kernel

/-- A poll of the object of objDev since cycle 0 with a limit of 5 cycles: of a WAITA, and of a BAR WAIT. -/
def poll5 (hit : Option Dbl) : Poll := { va := spadBase + 64, core := 0, off := 64, test := some (.eq, .dbl), y := 8#64, t0 := 0, lim := 5, hit := hit }
def pollB (hit : Option Dbl) : Poll := { va := spadBase + 64, core := 0, off := 64, test := none, y := 4#64, hit := hit }

/-- waita.eq.b8 s3, [s1], s2 at the start of the text, with a poll, at a cycle. -/
def waiting (p : Poll) (n : Nat) : State :=
  { (objDev 7 8 (fun t => { t with poll := some p })).modCore 0 (fun c =>
      { c with imem := [img [encode (.waita .eq .dbl 3 1 2 .always), 0]] }) with now := n }

theorem witness_signals_poll : (waiting (poll5 (some 8#64)) 4).able ∧ (waiting (poll5 (some 8#64)) 4).shape = true
    ∧ (objDev 7 7 id).st.poll = none
    ∧ relation .eq ((poll5 (some 8#64)).hit.getD 0#64) (poll5 none).y = true
    ∧ relation .eq (waitaExt .eq .dbl (mnat ((waiting (poll5 none) 4).core 0).spad 64 8)) (poll5 none).y = false
    ∧ ¬ 0 + (poll5 none).lim ≤ (waiting (poll5 none) 4).now ∧ 0 + (poll5 none).lim ≤ (waiting (poll5 none) 5).now
    ∧ (waiting (poll5 none) 5).able ∧ (waiting (poll5 none) 5).st.live = true ∧ (waiting (poll5 none) 5).st.stopped = false
    ∧ decodeWord (lget ((waiting (poll5 none) 5).text 0) ((waiting (poll5 none) 5).st.es.pc / 4) 0)
      = .ok (.waita .eq .dbl 3 1 2 .always)
    ∧ gives (exec (.waita .eq .dbl 3 1 2 .always) (waiting (poll5 (some 8#64)) 4)) (fun t => t.getS 3 == 8#64 && t.st.es.pc == 4)
      = true
    ∧ gives (exec (.waita .eq .dbl 3 1 2 .always) (waiting (poll5 none) 4)) (fun t => t.st.es.pc == 0) = true
    ∧ gives (exec (.waitaTimeout 0) (waiting (poll5 none) 5)) (fun t => t.getS 3 == 7#64 && t.st.es.pc == 4) = true := by
  unfold State.able
  decide +kernel

/-- A barrier with 1 of 2 arrivals in phase 5 and nothing pending; one whose arrivals are complete. -/
def bar12 : Nat := 1 + 2 * 2 ^ 16 + 5 * 2 ^ 32
def bar22 : Nat := 2 + 2 * 2 ^ 16 + 5 * 2 ^ 32

/-- A strand that waits on the phase of a barrier to leave 4. -/
def waitingB (hit : Option Dbl) : State := objDev bar12 4 (fun t => { t with poll := some (pollB hit) })

theorem witness_barriers_poll : (waitingB (some 1#64)).able ∧ (waitingB none).able
    ∧ gives (exec (.barWait 1 2 .always) (waitingB (some 1#64))) (fun t => t.st.es.pc == 4 && t.st.poll == none) = true
    ∧ gives (exec (.barWait 1 2 .always) (waitingB none)) (fun t => t.st.es.pc == 0) = true
    ∧ ((waitingB none).watch.strand 0).poll = some (pollB (some 1#64))
    ∧ (waitingB (some 0#64)).able ∧ (pollB (some 0#64)).hit = some 0#64 ∧ 0 < (waitingB none).cores.length
    ∧ gives (exec (.barWait 1 2 .always) (waitingB (some 0#64))) (fun t => recorded t .illegalOperand 0) = true := by
  unfold State.able
  decide +kernel

theorem witness_barriers : (objDev bar12 5 id).able ∧ (objDev bar12 5 id).ownAt ((objDev bar12 5 id).rdS 1).toNat 16 64
    ∧ barBad ((objDev bar12 5 id).own 64 16) = false ∧ barFields ((objDev bar12 5 id).own 64 16) = (1, 2, 5, 0)
    ∧ barBad ((objDev bar22 5 id).own 64 16) = false
    ∧ barFields ((objDev bar22 5 id).own 64 16) = (2, 2, 5, 0)
    ∧ (barFields ((objDev bar12 (2 ^ 27 - 1) id).own 64 16)).2.2.2 + ((objDev bar12 (2 ^ 27 - 1) id).rdS 2).toNat ≤ 2 ^ 27 - 1
    ∧ 2 ^ 27 - 1 < ((objDev bar12 (2 ^ 27) id).rdS 2).toNat
    ∧ 5 = ((objDev bar12 5 id).rdS 2).toNat % 65536 ∧ 5 ≠ ((objDev bar12 6 id).rdS 2).toNat % 65536
    ∧ gives (exec (.barArrive 3 1 .always) (objDev bar12 5 id)) (fun t => barFields (t.own 64 16) == (0, 2, 6, 0) && t.getS 3 == 5#64) = true := by
  unfold State.able State.ownAt
  decide +kernel
theorem witness_barriers_drains : (objDev bar12 5 id).drains 0 := drains_of (by decide +kernel)

/-- A barrier with ERR set, one with a reserved bit, and one whose PEND is at its greatest. -/
def barErr : Nat := bar12 + 2 ^ 92
def barRes : Nat := bar12 + 2 ^ 48
def barMax : Nat := bar12 + (2 ^ 27 - 1) * 2 ^ 64
theorem witness_barriers_faults : (objDev barErr 5 id).able ∧ (objDev barErr 5 id).ownAt ((objDev barErr 5 id).rdS 1).toNat 16 64
    ∧ barBad ((objDev barErr 5 id).own 64 16) = true ∧ barBad ((objDev barRes 5 id).own 64 16) = true
    ∧ barFields ((objDev barMax 1 id).own 64 16) = (1, 2, 5, 2 ^ 27 - 1)
    ∧ (2 ^ 27 - 1 : Int) < 2 ^ 27 - 1 + ((objDev barMax 1 id).rdS 2).toNat
    ∧ gives (exec (.barArriveExpect 3 1 2 .always) (objDev barErr 5 id)) (fun t => recorded t .illegalOperand 0) = true
    ∧ gives (exec (.barWait 1 2 .always) (objDev barRes 5 id)) (fun t => recorded t .illegalOperand 0) = true
    ∧ gives (exec (.barExpect 1 2 .always) (objDev barMax 1 id)) (fun t => recorded t .illegalOperand 0) = true
    ∧ gives (exec (.barArriveExpect 3 1 2 .always) (objDev bar22 5 id)) (fun t => recorded t .illegalOperand 0) = true := by
  unfold State.able State.ownAt
  decide +kernel

theorem witness_futures : (objDev 0 9 id).able ∧ (objDev 0 9 id).ownAt ((objDev 0 9 id).rdS 1).toNat 16 64
    ∧ futBad ((objDev 0 9 id).own 64 16) = false ∧ bit ((objDev 0 9 id).own 64 16) 0 = false
    ∧ futBad ((objDev (1 + 8 * 2 ^ 64) 9 id).own 64 16) = false ∧ bit ((objDev (1 + 8 * 2 ^ 64) 9 id).own 64 16) 0 = true
    ∧ gives (exec (.fget 3 1 .always) (objDev (1 + 8 * 2 ^ 64) 9 id)) (fun t => t.getS 3 == 8#64 && t.own 64 1 == 0) = true
    := by
  unfold State.able State.ownAt
  decide +kernel

theorem witness_futures_drains : (objDev 0 9 id).drains 0 := drains_of (by decide +kernel)

/-- A future with a reserved bit, and a FGET that waits on the future found at its issue. -/
def pollF : Poll := { va := spadBase + 64, core := 0, off := 64, test := none, y := 0#64, quiet := true }
def waitingF (x : Nat) : State := objDev x 9 (fun t => setS 1 0 { t with poll := some pollF })
theorem witness_futures_waits : (objDev 2 9 id).able ∧ futBad ((objDev 2 9 id).own 64 16) = true ∧ (objDev 2 9 id).st.poll = none
    ∧ (waitingF 1).able ∧ (waitingF 1).st.poll = some pollF ∧ pollF.core = (waitingF 1).cur ∧ pollF.off = 64
    ∧ futBad ((waitingF 1).own 64 16) = false ∧ bit ((waitingF 1).own 64 16) 0 = true
    ∧ gives (exec (.fpeek 3 1 .always) (objDev 2 9 id)) (fun t => recorded t .illegalOperand 0) = true
    ∧ gives (exec (.fget 3 1 .always) (waitingF (1 + 8 * 2 ^ 64))) (fun t => t.getS 3 == 8#64 && t.st.poll == none) = true
    ∧ gives (exec (.fget 3 1 .always) (waitingF 0)) (fun t => t.st.poll.isSome && t.st.es.pc == 0) = true := by
  unfold State.able
  decide +kernel

/-- A join object of count n lies in the page. -/
def joinDev (n : Nat) : State :=
  { (memDev id).modCore 0 (fun c => { c with tlb := [pageEntry] }) with
    xlt := { xids := [(0, { root := 4096, group := 0, valid := true })] }, home := mputn [] (2 ^ 13) 16 (n + 77 * 2 ^ 64) }

theorem witness_joins : (joinDev 0).able ∧ ((joinDev 0).rdS 3).toNat = 2 ^ 36 ∧ window (2 ^ 36) = .translated
    ∧ yields ((joinDev 0).resolve (joinDev 0).cur (2 ^ 36) .rd) (fun x => x.1 == .mem (2 ^ 13)) = true ∧ 2 ^ 13 < pcieBase
    ∧ joinBad (mnat (joinDev 0).home (2 ^ 13) 16) = false ∧ fld (mnat (joinDev 0).home (2 ^ 13) 16) 0 32 = 0
    ∧ yields ((joinDev 1).resolve (joinDev 1).cur (2 ^ 36) .rd) (fun x => x.1 == .mem (2 ^ 13)) = true
    ∧ joinBad (mnat (joinDev 1).home (2 ^ 13) 16) = false ∧ fld (mnat (joinDev 1).home (2 ^ 13) 16) 0 32 ≠ 0
    ∧ gives (exec (.join 4 3 .always) (joinDev 0)) (fun t => t.getS 4 == 77#64) = true := by
  unfold State.able
  decide +kernel

theorem witness_joins_faults : (holeDev 8).able ∧ 8 % 16 ≠ 0 ∧ window (2 ^ 48) = .hole ∧ window spadBase = .spad none 0
    ∧ gives (exec (.join 4 1 .always) (holeDev 8)) (fun t => recorded t .alignment 0) = true
    ∧ gives (exec (.join 4 1 .always) (holeDev (2 ^ 48))) (fun t => recorded t .translation 0) = true
    ∧ gives (exec (.join 4 1 .always) (holeDev spadBase)) (fun t => recorded t .permission 0) = true := by
  unfold State.able
  decide +kernel

/-- Atomics at the home of a page. -/
theorem witness_atomics_places : (joinDev 5).able ∧ (joinDev 5).shape = true ∧ (joinDev 5).memWf = true
    ∧ (joinDev 5).st.tokCount 0 < 63 ∧ ((joinDev 5).rdS 3).toNat % 8 = 0
    ∧ yields ((joinDev 5).resolve (joinDev 5).cur ((joinDev 5).rdS 3).toNat .amo) (fun x => x.1 == .mem (2 ^ 13)) = true
    ∧ 2 ^ 13 % 8 = 0 ∧ 2 ^ 13 < apKeyBase ∧ Scope.device ≠ .core ∧ Scope.device ≠ .cluster
    ∧ (Target.mem (2 ^ 13)).isBus = false
    ∧ gives (exec (.amo .add 4 3 2 .device .dbl) (joinDev 5)) (fun t => mnat t.home (2 ^ 13) 8 == 10 && (t.st.rets.map (·.val)) == [5]) = true
    ∧ gives (exec (.cas 2 3 1 .core .dbl) (joinDev 5)) (fun t =>
        t.seen 0 (2 ^ 13) == BitVec.ofNat 8 ((spadBase + 4080) % 256) && mnat t.home (2 ^ 13) 8 == 5) = true := by
  unfold State.able
  decide +kernel

/-- The same page lies on the bus, at address 2^13. -/
def busPageDev : State :=
  (joinDev 0).modCore 0 (fun c => { c with tlb := [{ pageEntry with frame := pcieBase + 2 ^ 13 }] })
theorem witness_storeBytes_bus : busPageDev.shape = true ∧ busPageDev.able
    ∧ yields (busPageDev.resolve 0 (busPageDev.effAddr 3 8 0 8) .wr) (fun x => x.1 == .bus (2 ^ 13)) = true
    ∧ gives (exec (.st 2 3 0 .dbl 0) busPageDev) (fun t => t.byteAt (.bus (2 ^ 13)) == 5#8) = true
    ∧ yields (busPageDev.resolve 0 (busPageDev.rdS 3).toNat .amo) (fun x => x.1 == .bus (2 ^ 13)) = true
    ∧ amoBus .minu = false ∧ amoBus .add = true
    ∧ gives (exec (.amo .minu 4 3 2 .core .dbl) busPageDev) (fun t => recorded t .permission 0) = true
    ∧ gives (exec (.amo .add 4 3 2 .core .dbl) busPageDev) (fun t => t.byteAt (.bus (2 ^ 13)) == 5#8) = true := by
  unfold State.able
  decide +kernel

/-! QueuesAndPorts, Transfers -/

/-- Queues at the edges: S to M full, V to S with an entry before a marker, M to S at a marker, one outcome for S. -/
def s31q : State := dev [0] (fun t =>
  let t := setQ 1 (List.replicate 16 (some 1#64)) (setQ 3 [some 9#64, none] (setQ 4 [none] t))
  { t with qs := { t.qs with oq := t.qs.oq.set (oqIdx .s) [true] } })

/-- Three S words and three V words, M's outcome queue full. -/
def xferDev : State := dev [0, 0, 0, 0x40000000, 0x40000000, 0x40000000, 0, 0, 0x40000000] (fun t =>
  { t with ev := { t.ev with pc := 12 }
           qs := { t.qs with oq := (t.qs.oq.set (oqIdx .m) (List.replicate 16 true)).set (oqIdx .v) [false] } })

theorem witness_queues : s31q.able ∧ (s31q.queue 0).length < 16 ∧ 16 ≤ (s31q.queue 1).length
    ∧ s31q.st.qs.fq.length < 32 ∧ s31q.queue 3 = some 9#64 :: [none]
    ∧ s31q.queue 4 = none :: [] ∧ s31q.oq .s = true :: []
    ∧ gives (exec (.qpop 0 4) s31q) (fun t => t.getS 4 == 9#64 && t.queue 3 == [none]) = true
    ∧ gives (exec (.qpop 1 4) s31q) (fun t => recorded t .queueUnderflow 0) = true := by
  unfold State.able
  decide +kernel

/-- V to S converts fp32 to i32: 2.5 rounds to 2, with INX. -/
def convq : State := dev [0] (fun t => let t := setQ 3 [some 0x40200000#64] t
  { t with qs := { t.qs with src := t.qs.src.set 3 8, snk := t.qs.snk.set 3 10 } })
theorem witness_queues_convert : convq.able ∧ convq.queue 3 = some 0x40200000#64 :: [] ∧ lget convq.st.qs.src 3 15 = 8
    ∧ lget convq.st.qs.snk 3 15 = 10 ∧ 8 ≠ 10 ∧ 8 ≠ 15 ∧ 10 ≠ 15
    ∧ gives (exec (.qpop 0 4) convq) (fun t => t.getS 4 == 2#64 && t.st.flags == 8#6) = true := by
  unfold State.able
  decide +kernel

/-- A parameter block of a read port: one element of 4 bytes at the own scratchpad's start. -/
def block0 : Nat := spadBase + 2 ^ 66 + 2 ^ 128 * (1 + 2 ^ 16 + 2 ^ 32 + 2 ^ 48)
def psetDev (x : Nat) (f : Strand → Strand) : State :=
  (dev [0, 0] (fun t => f (setS 1 (spadBase + 4048) t))).modCore 0 (fun c => { c with spad := mputn c.spad 4048 48 x })

theorem witness_ports : (psetDev block0 id).able ∧ ((psetDev block0 id).rdS 1).toNat = spadBase + 4048
    ∧ 4048 % 16 = 0 ∧ 4048 + 48 ≤ (psetDev block0 id).st.allot
    ∧ portOk ((psetDev block0 id).own 4048 48) = true ∧ portOk ((psetDev 0 id).own 4048 48) = false
    ∧ (lget (psetDev block0 id).st.qs.port 3 {}).held < 4
    ∧ gives (exec (.pset 3 1) (psetDev block0 id)) (fun t => (lget t.st.qs.port 3 {}).held == 1) = true
    ∧ gives (exec (.pset 3 1) (psetDev 0 id)) (fun t => recorded t .commandField 0) = true := by
  unfold State.able
  decide +kernel

theorem witness_marks : s31q.able ∧ (∀ q, q < 3 → bit 0xD q = true → (s31q.queue q).length < 16)
    ∧ (bit 0xD 3 = true → s31q.st.qs.fq.length < 32)
    ∧ lget s31q.st.drain 0 0 = 0 ∧ toMarker (s31q.queue 3) = some [] ∧ toMarker (s31q.queue 4) = some [] := by
  unfold State.able
  decide +kernel

def drainDev : State := dev [0] (fun t => { setQ 0 [some 1#64, none, some 2#64] t with
  qs := { (setQ 0 [some 1#64, none, some 2#64] t).qs with port := List.replicate 4 { cfgs := [none], moved := 0 } } })

theorem witness_vqdrain : drainDev.able ∧ lget drainDev.st.drain 1 0 = 0 ∧ toMarker (drainDev.queue 0) = some [some 2#64]
    ∧ (∀ p, p < 4 → toMarker (lget drainDev.st.qs.port p {}).cfgs = some (lget (List.replicate 4 ([] : List (Option PortCfg))) p []))
    ∧ (drainDev.queue 3).length < 16 ∧ (drainDev.queue 5).length < 16
    ∧ gives (exec .vqdrain drainDev) (fun t => t.queue 0 == [some 2#64] && t.queue 3 == []) = true
    ∧ gives (exec .vqdrain (drainDev.modSt (fun t => { t with qs := { t.qs with vsPushed := true } }))) (fun t =>
        t.queue 3 == [none] && t.queue 5 == []) = true := by
  unfold State.able
  decide +kernel

theorem witness_transfers : xferDev.present = true ∧ (xferDev.st.eng .s).slots = 0 ∧ xferDev.slot2 .s = some 8
    ∧ (xferDev.oq .v).length < 16 ∧ 16 ≤ (xferDev.oq .m).length
    ∧ gives (exec (.xfer 5 1 1 0 0 1) xferDev) (fun t => t.getB 7 == 12#32 && t.oq .v == [false, true]) = true := by
  decide +kernel

theorem witness_transfers_engines : (xferDev.st.eng .v).slots = 0 ∧ (xferDev.slot2 .v).isSome = true
    ∧ (0 : Int) ≤ ((xferDev.st.eng .v).pc : Int) + 4 * sextInt 21 5
    ∧ ((xferDev.st.eng .v).pc : Int) + 4 * sextInt 21 5 < (4 * (xferDev.text xferDev.cur).length : Nat)
    ∧ xferDev.oq .v = false :: [] ∧ xferDev.st.ks.window = []
    ∧ gives (exec (.vbq 0 5) xferDev) (fun t => t.st.ev.target == 32 && t.st.ev.taken) = true := by decide +kernel

theorem witness_transfers_faults : (dev [0, 0, 0] (fun t => { t with es := { t.es with slots := 2 } })).st.es.slots ≠ 0
    ∧ ((dev [0, 0] id).st.eng .s).slots = 0 ∧ (dev [0, 0] id).slot2 .s = none
    ∧ gives (exec (.xfer 5 1 1 0 0 0) (dev [0, 0] id)) (fun t => recorded t .illegalEncoding 0) = true := by decide +kernel

end Sys2Proof.Tests
end

