-- ==== Sys2Proof/Tests/WitnessD.lean ====
section
/-! SUPPORT. For each statement about the vector unit and the tile words of M: states and operands that meet its hypotheses. -/

set_option Elab.async false

namespace Sys2Proof.Tests

open Sys2Proof.Machine

/-! OperandReads, LaneResults, IntegerLanes, FloatLanes, NumberFormats -/

/-- v[1] has lanes of 8 bits 1, 2, 3, 4 at its low end, v[2] 255 in lane 0; S to V holds 0x0107. -/
def vecDev (f : Strand → Strand) : State :=
  dev [0x40000000, 0x40000000, 0x40000000] (fun t => f (setQ 0 [some 0x0107#64] (setV 1 0x04030201 (setV 2 0xFF t))))

theorem witness_operandReads : (vecDev id).present = true ∧ (vecDev id).st.hz = [] ∧ (vecDev id).st.rets = []
    ∧ (vecDev id).queue 0 = some 0x0107#64 :: []
    ∧ yields ((vecDev id).source .q 1 8 0) (fun x => lane 8 127 x.1 == 7) = true := by decide +kernel

/-- S to V converts fp32 to i32; and a write of v[1] by V, one of s[1], and one of tile 7 by M that V may still miss. -/
def convDev : State := vecDev (fun t => let t := setQ 0 [some 0x40200000#64] t
  { t with qs := { t.qs with src := t.qs.src.set 0 8, snk := t.qs.snk.set 0 10 } })
def hz1 (u : HzUnit) (e : Eng) (w m due far : Nat) : Hazard := { unit := u, old := 5, width := w, due := due, mask := m, eng := e, far := far }
def hzDev (h : Hazard) : State := vecDev (fun t => { t with hz := [h] })
theorem witness_operandReads_hazards : hazards (hzDev (hz1 (.s 1) .s 64 (ones 64) 9 9)).st (.s 1) = [hz1 (.s 1) .s 64 (ones 64) 9 9]
    ∧ hazards (hzDev (hz1 (.v 1) .v 8 (ones 1024) 9 9)).st (.v 1) = [hz1 (.v 1) .v 8 (ones 1024) 9 9]
    ∧ (hz1 (.s 1) .s 64 (ones 64) 0 9).due ≤ State.reset.now ∧ (hz1 (.t 7) .m 64 0 9 0).far ≤ State.reset.now ∧ Eng.m ≠ .v
    ∧ convDev.present = true ∧ convDev.queue 0 = some 0x40200000#64 :: []
    ∧ yields (convDev.source .q 1 8 0) (fun x => x.2.st.flags == 8#6 && lane 8 127 x.1 == 2) = true := by decide +kernel

def vadd8 : Instr := .vadd (.reg 31) (.reg 1) (.reg 2) .i8 0 1
theorem witness_laneResults : (laneOp2 vadd8).isSome = true ∧ (vecDev id).present = true ∧ (vecDev id).st.commit ≠ .done
    ∧ yields ((vecDev id).dstOk (.reg 31) 1) (fun _ => true) = true ∧ yields ((vecDev id).srcOk (.reg 1) 1) (fun _ => true) = true
    ∧ yields ((vecDev id).source (.reg 1) 1 8 0) (fun x => x.1 == 0x04030201) = true
    ∧ gives (exec vadd8 (vecDev id)) (fun t => lane 8 0 (lget t.st.regs.v 31 0#1024).toNat == 0
        && lane 8 1 (lget t.st.regs.v 31 0#1024).toNat == 2) = true
    ∧ (laneOp1 (.vaddi (.reg 31) (.reg 1) 0xFFF)).isSome = true
    ∧ yields ((vecDev id).source (.reg 1) 1 32 0) (fun _ => true) = true
    ∧ gives (exec (.vaddi (.reg 31) (.reg 1) 0xFFF) (vecDev id)) (fun t =>
        lane 32 0 (lget t.st.regs.v 31 0#1024).toNat == 0x04030200) = true := by decide +kernel

/-- A device in which words of V on lanes issue at once: all 32 registers, and tile 7 of its reset type. -/
def laneDev : State := vecDev (fun t => { t with vregs := 32 })
theorem witness_laneReady : laneDev.able ∧ laneDev.st.vregs ≤ 32 ∧ laneWord vadd8 = true ∧ laneDev.laneReady vadd8
    ∧ laneDev.laneReady (.vdeq (.reg 28) (.reg 1) .zero .i16) ∧ laneDev.laneReady (.vtr (.reg 31) 7 .row 63 none .rne)
    ∧ laneDev.laneReady (.vqpush 0 (.reg 1)) ∧ laneDev.laneReady (.vcmp .lt 1 (.reg 1) (.reg 2) .i8) := by
  refine ⟨by unfold State.able; decide +kernel, by decide +kernel, rfl, ⟨?_, ?_, trivial⟩, ⟨?_, ?_, trivial⟩, ⟨?_, ?_, ?_⟩,
    ⟨?_, ?_, ?_⟩, ⟨?_, ?_, ?_⟩⟩
  · simp [vadd8, vectorReads, State.regSrc]; decide +kernel
  · simp [vadd8, vecDst, dstGroup]; decide +kernel
  · simp [vectorReads, State.regSrc]; decide +kernel
  · simp [vecDst, dstGroup]; decide +kernel
  · simp [vectorReads]
  · simp [vecDst, dstGroup]; decide +kernel
  · exact ⟨⟨.bf16, by decide +kernel⟩, by decide +kernel⟩
  · simp [vectorReads, State.regSrc]; decide +kernel
  · simp [vecDst]
  · decide +kernel
  · simp [vectorReads, State.regSrc]; decide +kernel
  · simp [vecDst]
  · decide +kernel

/-- Port 0 writes, one byte an element, to the start of the own scratchpad. -/
def wport : PortCfg := { base := spadBase, dir := 1, esz := 0, oc := 2, tv := 1, tok := 7, estride := 1, counts := [1, 1, 1, 1], strides := [0, 0, 0, 0] }
def portDev (c : PortCfg) : State :=
  vecDev (fun t => { t with qs := { t.qs with port := t.qs.port.set 0 { cfgs := [some c], moved := 0 } } })
theorem witness_laneResults_port : (laneOp2 (.vadd (.port 0) (.reg 1) (.reg 2) .i8 0 1)).isSome = true
    ∧ yields ((portDev wport).dstOk (.port 0) 1) (fun _ => true) = true
    ∧ yields ((portDev wport).portPutGroup 0 (2 ^ 1024 - 1) 5 1) (fun _ => true) = true
    ∧ gives (exec (.vadd (.port 0) (.reg 1) (.reg 2) .i8 0 1) (portDev wport)) (fun t => t.st.psts.length == 1) = true := by
  decide +kernel

theorem witness_laneResults_fma : yields ((vecDev id).regOk 31 1) (fun _ => true) = true
    ∧ yields ((vecDev id).srcOk .zero 1) (fun _ => true) = true
    ∧ yields ((vecDev id).source (.reg 1) 1 32 (laneBits 32 ((vecDev id).active 4 32))) (fun _ => true) = true
    ∧ yields ((vecDev id).source .zero 1 32 (allBits 1)) (fun x => x.1 == 0) = true
    ∧ gives (exec (.vsel (.reg 31) (.reg 1) .zero .i8) (vecDev id)) (fun t => lget t.st.regs.v 31 0#1024 == 0x04030201#1024) = true
    := by decide +kernel

theorem witness_laneResults_selPort : yields ((portDev wport).srcOk (.reg 1) 1) (fun _ => true) = true
    ∧ yields ((portDev wport).source (.reg 1) 1 8 (allBits 1)) (fun x =>
        yields (x.2.source .zero 1 8 (allBits 1)) (fun y => y.2.upsets == []
          && yields (y.2.portPutGroup 0 (allBits 1) (ofLanes 8 ((List.range 128).map (fun j => lane 8 j x.1))) 1) (fun _ => true))) = true
    ∧ gives (exec (.vsel (.port 0) (.reg 1) .zero .i8) (portDev wport)) (fun t => t.st.psts.length == 1) = true := by decide +kernel

theorem witness_integerLanes : 255 < 2 ^ 8 ∧ arithLane .add (.int 8 true) true 127 1 0 = (127, fSAT)
    ∧ arithLane .add (.int 8 false) false 255 1 0 = (0, 0) ∧ mulwLane (.int 8 true) (.int 32 true) 128 128 = (16384, 0)
    ∧ addwLane (.int 8 true) (.int 32 true) true (2 ^ 31 - 1) 1 = (2 ^ 31 - 1, fSAT)
    ∧ narrLane (.int 8 true) (.int 32 true) true 300 = (127, fSAT) ∧ relLane .lt (.int 8 true) 255 0 = true
    ∧ cvtLane (.int 32 true) (.int 8 false) .rne true (2 ^ 32 - 1) = (0, fSAT + fINX) := by decide +kernel

/-- Codes of each kind: 1, -1, 0, an infinity, a NaN; the sum, product and comparison of some. -/
theorem witness_floatLanes : NTy.isFloat .bf16 = true ∧ NTy.bf16.value 0x3F80 = .fin false 128 (-7)
    ∧ NTy.bf16.value 0xBF80 = .fin true 128 (-7) ∧ (NTy.bf16.value 0x8000).isZero = true ∧ NTy.bf16.value 0x7F80 = .inf false
    ∧ NTy.bf16.value 0xFF80 = .inf true ∧ (NTy.bf16.value 0x7FC0).isNaN = true ∧ (NTy.e4m3.value 0x7F).isNaN = true
    ∧ arithLane .sub .bf16 false 0x3F80 0x3F80 0 = (0, 0) ∧ arithLane .mul .bf16 false 0x7F80 0x8000 0 = (0x7FC0, fINV)
    ∧ arithLane .fnma .bf16 false 0x3F80 0x7F80 0xFF80 = (0xFF80, 0) ∧ minMaxLane .bf16 false 0 0x8000 = 0x8000
    ∧ relLane .ne .bf16 0x7FC0 0x7FC0 = true ∧ mulwLane .e4m3 .fp32 0x38 0x38 = (0x3F800000, 0)
    ∧ addwLane .e4m3 .fp32 false 0x3F800000 0x38 = (0x40000000, 0) ∧ rintLane .fp32 .rne 0x40200000 = 0x40000000
    ∧ rcpLane .bf16 0x4000 = (0x3F00, 0) ∧ rsqLane .fp32 0x80000000 = (0xFF800000, fDZE)
    ∧ scalebLane 0x3F800000 0x40200000 = (0x40800000, 0) ∧ exp2Lane 0x3F800000 = (0x7FC00000, fINV)
    ∧ redLanes .sum .bf16 [0x7F80, 0xFF80] = (0x7FC0, fINV) ∧ redLanes .max .bf16 [0x8000, 0] = (0, 0) := by decide +kernel

/-- The number that a finite code stands for. -/
theorem rat_of {t : NTy} {c : Nat} {n : Bool} {m : Nat} {e : Int} (h : t.value c = .fin n m e) :
    t.rat c = (if n then -1 else 1) * (m : ℚ) * (2 : ℚ) ^ e := by simp [NTy.rat, h, FVal.rat]

theorem witness_floatLanes_exp2 : 1 / 2 < |NTy.fp32.rat 0x3F800000| ∧ NTy.fp32.rat 0x80000000 = 0
    ∧ NTy.fp32.rat 0xBF000000 ≠ 0 ∧ |NTy.fp32.rat 0xBF000000| ≤ 1 / 2
    ∧ |1 / NTy.fp32.rat 0xBF000000| ≤ NTy.fp32.rat NTy.fp32.maxMag ∧ NTy.fp32.rat NTy.fp32.maxMag < |1 / NTy.fp32.rat 1| := by
  rw [rat_of (by decide +kernel : NTy.fp32.value 0x3F800000 = .fin false (2 ^ 23) (-23)),
    rat_of (by decide +kernel : NTy.fp32.value 0x80000000 = .fin true 0 (-149)),
    rat_of (by decide +kernel : NTy.fp32.value 0xBF000000 = .fin true (2 ^ 23) (-24)),
    rat_of (by decide +kernel : NTy.fp32.value NTy.fp32.maxMag = .fin false (2 ^ 24 - 1) 104),
    rat_of (by decide +kernel : NTy.fp32.value 1 = .fin false 1 (-149))]
  norm_num [abs_of_pos, abs_of_neg]

theorem witness_numberFormats : (NTy.n4 3).known ∧ (NTy.int 32 true).known ∧ NTy.isFloat .e5m2 = true ∧ 1 < 2 ∧ 31 < 2 ^ 5 ∧ 3 < 2 ^ 2
    ∧ NTy.e5m2.value (1 * 2 ^ 7 + 31 * 2 ^ 2 + 0) = .inf true ∧ NTy.e4m3.value 0x38 = .fin false 8 (-3)
    ∧ convert 0x38 .e4m3 .fp16 .rne false = (0x3C00, 0) ∧ rnd (.inf true) (.int 8 true) .rne false = (0x80, fINV)
    ∧ swE (128 * 64 + 32) = 128 ∧ swE 63 = 0 ∧ swE (255 * 64) = 255
    ∧ quantize (.fin false 3 0) .e4m3 (some (128 * 64 + 32)) false = (0x38, 0)
    ∧ dequantize 0x38 .e4m3 (some (128 * 64 + 32)) = (0x40400000, 0) := by
  refine ⟨by show (3 : Nat) < 4; decide, by show (32 : Nat) = 8 ∨ 32 = 16 ∨ 32 = 32; decide, ?_⟩
  decide +kernel

/-! PredicateWords -/

def predDev (l : List Mask) : State := vecDev (fun t => { t with regs := { t.regs with pred := l } })
theorem witness_predicateWords : (predDev [5#128, 7#128]).present = true ∧ (predDev [5#128, 7#128]).st.commit ≠ .done
    ∧ (predDev [5#128, 7#128]).st.regs.pred = 5#128 :: 7#128 :: [] ∧ (predDev [5#128, 7#128]).st.regs.pred.length < 16
    ∧ 16 ≤ (predDev (List.replicate 16 7#128)).st.regs.pred.length ∧ (predDev [7#128]).st.regs.pred = [7#128]
    ∧ ((predDev [7#128]).oq .s).length < 16 ∧ ((predDev [7#128]).oq .m).length < 16 ∧ ((predDev [7#128]).oq .c).length < 16
    ∧ yields ((predDev [7#128]).source (.reg 1) 1 8 0) (fun _ => true) = true
    ∧ gives (exec .velse (predDev [5#128, 7#128])) (fun t => t.st.regs.pred == [2#128, 7#128]) = true
    ∧ gives (exec .vend (predDev [7#128])) (fun t => recorded t .illegalOperand 1) = true
    ∧ gives (exec (.vcmp .lt 1 (.reg 1) (.reg 2) .i8) (predDev [7#128])) (fun t => t.st.regs.pred == [1#128, 7#128]) = true
    := by decide +kernel

/-! BlockScaledWords, CrossLaneWords -/

theorem witness_blockScaled : (vecDev id).present = true ∧ yields ((vecDev id).srcOk .zero 1) (fun _ => true) = true
    ∧ yields ((vecDev id).regOk 28 4) (fun _ => true) = true ∧ yields ((vecDev id).srcOk (.reg 28) 4) (fun _ => true) = true
    ∧ yields ((vecDev id).source (.reg 28) 4 32 0) (fun x => x.1 == 0) = true
    ∧ yields ((vecDev id).source .zero 1 16 (scaleBits ((vecDev id).active 1 128))) (fun x => x.1 == 0) = true
    ∧ gives (exec (.vdeq (.reg 28) (.reg 1) .zero .i16) (vecDev id)) (fun t => t.st.ev.pc == 4) = true
    ∧ yields ((portDev wport).source (.reg 28) 4 32 (laneBits 32 ((portDev wport).active 1 128))) (fun x =>
        yields (x.2.source .zero 1 16 (scaleBits ((portDev wport).active 1 128))) (fun y => y.2.upsets == []
          && yields (y.2.portPutGroup 0 (laneBits 8 ((portDev wport).active 1 128)) 0 1) (fun _ => true))) = true
    ∧ gives (exec (.vquant (.port 0) (.reg 28) .zero .i8 0) (portDev wport)) (fun t => t.st.psts.length == 1) = true := by decide +kernel

theorem witness_crossLane_port : yields ((portDev wport).source (.reg 1) 1 8 (allBits 1)) (fun x => x.2.upsets == []
      && yields (x.2.portPutGroup 0 (allBits 1) 10 1) (fun _ => true)) = true
    ∧ gives (exec (.vred .sum (.port 0) (.reg 1) .i8) (portDev wport)) (fun t => t.st.psts.length == 1) = true
    ∧ gives (exec (.viota (.port 0) 1) (portDev wport)) (fun t => t.st.psts.length == 1) = true := by decide +kernel

theorem witness_crossLane : ([(0, 5), (1, 9)].map Prod.fst : List Nat).Pairwise (· < ·)
    ∧ topOrder (.int 8 true) [(0, 5), (1, 9), (2, 9)] = [1, 2, 0]
    ∧ yields ((vecDev id).regOk 31 1) (fun _ => true) = true
    ∧ yields ((vecDev id).source (.reg 1) 1 8 (allBits 1)) (fun x => x.1 == 0x04030201) = true
    ∧ gives (exec (.vred .sum (.reg 31) (.reg 1) .i8) (vecDev id)) (fun t => lget t.st.regs.v 31 0#1024 == 10#1024) = true
    ∧ gives (exec (.vslide (.reg 31) (.reg 1) .w8 0xFF) (vecDev id)) (fun t => lget t.st.regs.v 31 0#1024 == 0x040302#1024) = true
    ∧ gives (exec (.viota (.reg 31) 0xFFF) (vecDev id)) (fun t => lane 32 0 (lget t.st.regs.v 31 0#1024).toNat == 2 ^ 32 - 1
        && lane 32 31 (lget t.st.regs.v 31 0#1024).toNat == 30) = true := by decide +kernel

/-! TilesAndVectors, VectorMemory -/

theorem witness_tilesAndVectors : (vecDev id).tileTy 7 = TileTy.code .bf16 ∧ yields ((vecDev id).regOk 31 1) (fun _ => true) = true
    ∧ yields ((vecDev id).srcOk (.reg 1) 1) (fun _ => true) = true
    ∧ yields ((vecDev id).source (.reg 1) 1 16 0) (fun _ => true) = true
    ∧ (4 : Nat) = 4 ∧ 63 < 64 ∧ 31 < 128 / 4 ∧ ((vecDev id).queue 3).length < 16
    ∧ gives (exec (.vtw (.reg 1) 7 .row 63 none .rne) (vecDev id)) (fun t => fld (lget t.st.regs.t 7 0#65536).toNat (63 * 1024) 32 == 0x04030201) = true
    ∧ gives (exec (.vqpush 0 (.reg 1)) (vecDev id)) (fun t => t.queue 3 == [some 0x04030201#64]) = true := by decide +kernel

theorem witness_tilesAndVectors_port : (portDev wport).tileTy 7 = TileTy.code .bf16 ∧ (∀ h ∈ (portDev wport).st.hz, h.was = none)
    ∧ yields ((portDev wport).portPutGroup 0 (laneBits 16 ((portDev wport).active 2 64)) 0 1) (fun _ => true) = true
    ∧ gives (exec (.vtr (.port 0) 7 .row 63 none .rne) (portDev wport)) (fun t => t.st.psts.length == 1) = true := by decide +kernel

def rport : PortCfg := { wport with dir := 0 }
theorem witness_ports_elements : wport.counts = [1, 1, 1, 1] ∧ wport.strides = [0, 0, 0, 0]
    ∧ (portDev rport).able ∧ rport.esz < 4 ∧ (∀ k, k < 128 → rport.addr 0 k = spadBase + k ∧ k + 1 ≤ (portDev rport).st.allot
        ∧ k + 1 ≤ (portDev rport).carveBase (portDev rport).cur)
    ∧ yields ((portDev rport).portCur 0 0) (fun c => c == rport) = true
    ∧ yields ((portDev wport).portCur 0 1) (fun c => c == wport) = true ∧ wport.tv = 1 ∧ wport.tok < 8
    ∧ (portDev wport).st.tokCount wport.tok < 63 ∧ fld (2 ^ 1024 - 1) 0 8 ≠ 0
    ∧ yields ((portDev rport).portRead 0 (2 ^ 1024 - 1)) (fun _ => true) = true := by
  unfold State.able
  decide +kernel

/-- Offsets 4 * lane in v[1], the base in S to V. -/
def gathDev : State :=
  (vecDev (fun t => setQ 0 [some (BitVec.ofNat 64 spadBase)] (setV 1 (ofLanes 32 ((List.range 32).map (4 * ·))) t))).modCore 0
    (fun c => { c with spad := [(4, 9#8)] })
theorem witness_vectorMemory : gathDev.able ∧ gathDev.st.tokCount 7 < 63
    ∧ yields (gathDev.srcOk (.reg 1) 1) (fun _ => true) = true
    ∧ yields (gathDev.vgBase (.reg 1) 0 1) (fun x => x.1 == (List.range 32).map (fun i => spadBase + 4 * i) && x.2.upsets == []) = true
    ∧ 31 < 32 ∧ yields (gathDev.regOk 31 1) (fun _ => true) = true ∧ gathDev.st.storing .v (some 0) = false
    ∧ gathDev.st.storing .v none = false ∧ 4 * 31 + 4 ≤ gathDev.st.allot
    ∧ gives (exec (.vgath (.reg 31) (.reg 1) 7 0 1 .fp32) gathDev) (fun t => (t.st.rets.map (fun r => fld r.val 32 32)) == [9]) = true
    ∧ gives (exec (.vscat (.reg 2) (.reg 1) 7 0 1 .fp32) gathDev) (fun t => t.st.psts.length == 1) = true
    ∧ gives (exec (.vamo .add (.reg 2) (.reg 1) 7 0 1 .i32) gathDev) (fun t => mnat (t.core 0).spad 0 4 == 255) = true := by
  unfold State.able
  decide +kernel

theorem witness_vectorMemory_narrow : yields (gathDev.vgBase .zero 0 1) (fun x =>
      x.2.upsets == [] && x.2.vgActive x.1 == (List.range 32).map (fun i => (i, spadBase))) = true
    ∧ gives (exec (.vgath (.reg 31) .zero 7 0 1 .i8) gathDev) (fun t =>
        t.st.rets.map (fun r => (fld r.mask (8 * 127) 8, fld r.val (8 * 32) 8)) == [(255, 0)]) = true := by decide +kernel

theorem witness_vectorMemory_issue : gathDev.st.vregs ≤ 32 ∧ 7 < 8 ∧ gathDev.regSrc 1 (.reg 1) ∧ gathDev.regSrc 1 (.reg 2)
    ∧ 7 < gathDev.st.vregs ∧ gathDev.queue 0 = some (BitVec.ofNat 64 spadBase) :: []
    ∧ (qConvert (lget gathDev.st.qs.src 0 15) (lget gathDev.st.qs.snk 0 15) (BitVec.ofNat 64 spadBase)).1 = BitVec.ofNat 64 spadBase
    ∧ gathDev.vgActive (vgAddrs (BitVec.ofNat 64 spadBase).toNat (gathDev.regVal 1 (.reg 1)) 0 1)
      = (List.range 32).map (fun i => (i, spadBase + 4 * i)) ∧ TileTy.fp32.code = 8 := by
  refine ⟨?_, ?_, ⟨?_, ?_⟩, ⟨?_, ?_⟩, ?_⟩ <;> decide +kernel

/-! TileComputing -/

def mDev (f : Strand → Strand) : State := dev [0x80000000, 0x80000000] f
theorem witness_tileComputing : (mDev id).present = true ∧ (mDev id).st.commit ≠ .done ∧ (mDev id).st.ks.window = []
    ∧ yields (mDev id).keyGate (fun _ => true) = true ∧ (mDev id).tileTy 7 = TileTy.code .bf16
    ∧ (mDev id).st.hz = [] ∧ (mDev id).st.tileBusy 7 = false
    ∧ (mDev (fun t => { t with rets := [{ dst := .t 7, val := 0, mask := 1, tok := 0, eng := .m }] })).st.tileBusy 7 = true
    ∧ typesOk (mDev id).st.regs.tt (.tmov 7 .col 0 .adiag) = true
    ∧ typesOk (mDev id).st.regs.tt (.tadd 7 .row 0 .col 1 .diag) = true
    ∧ typesOk (mDev id).st.regs.tt (.tscal 7 .row 0 .col) = true
    ∧ (mDev (setQ 1 [some 1#64])).queue 1 = some 1#64 :: []
    ∧ lget (mDev id).st.qs.src 1 15 = lget (mDev id).st.qs.snk 1 15
    ∧ gives (exec (.tcfg 7 0 .fp32) (mDev id)) (fun t => t.tileTy 7 == 8) = true := by decide +kernel

/-- The base and the pitch of a tile in S to M; a scratchpad large enough for it. -/
def tldDev : State := dev [0x80000000, 0x80000000] (fun t =>
  setQ 1 [some (BitVec.ofNat 64 spadBase), some 128#64] { t with allot := 8192 })
theorem witness_tileComputing_memory : tldDev.upsets = [] ∧ 7 < 8 ∧ tldDev.st.tokCount 7 < 63
    ∧ tileAddr spadBase 128 2 63 63 = spadBase + 128 * 63 + 126 ∧ 128 * 63 + 128 ≤ tldDev.st.allot
    ∧ tldDev.st.storing .m (some 15) = false ∧ tldDev.st.cyc.waited = 0#8 ∧ tldDev.tileTy 7 = TileTy.code .bf16
    ∧ tldDev.queue 1 = some (BitVec.ofNat 64 spadBase) :: some 128#64 :: [] ∧ (128#64).toInt % 2 = 0
    ∧ (128#64).toInt < 2 ^ 31 := by decide +kernel

end Sys2Proof.Tests
end

section
/-! SUPPORT. The scalar datapath of O6: what the functions of ALU and MULDIV compute, which of their field values the decoder
refuses, and the words whose effect is one write of a scalar register (spec/06_scalar_instructions.md R121 to R126). -/

namespace Sys2Proof.Machine

/-! ### Functions of ALU (Table 6.1) -/

theorem toNat_aluFn_sub (d a b : Dbl) : (aluFn .sub d a b).toNat = (2 ^ 64 + a.toNat - b.toNat) % 2 ^ 64 := by
  have hb := b.isLt
  rw [show aluFn .sub d a b = a - b from rfl, BitVec.toNat_sub, Nat.sub_add_comm hb.le]

/-- SEL takes a where d has a one, and b elsewhere. -/
theorem getLsbD_aluFn_sel (d a b : Dbl) (i : Nat) :
    (aluFn .sel d a b).getLsbD i = if d.getLsbD i then a.getLsbD i else b.getLsbD i := by
  have hb : b.getLsbD i = true → i < 64 := BitVec.lt_of_getLsbD
  simp only [aluFn, BitVec.getLsbD_or, BitVec.getLsbD_and, BitVec.getLsbD_not]
  cases hd : d.getLsbD i <;> simp_all

theorem getLsbD_aluFn_andn (d a b : Dbl) (i : Nat) :
    (aluFn .andn d a b).getLsbD i = (a.getLsbD i && !b.getLsbD i) := by
  have ha : a.getLsbD i = true → i < 64 := BitVec.lt_of_getLsbD
  simp only [aluFn, BitVec.getLsbD_and, BitVec.getLsbD_not]
  cases h : a.getLsbD i <;> simp_all

theorem toNat_aluFn_shl (d a b : Dbl) : (aluFn .shl d a b).toNat = a.toNat * 2 ^ (b.toNat % 64) % 2 ^ 64 := by
  simp only [aluFn, BitVec.toNat_shiftLeft, Nat.shiftLeft_eq]

theorem toNat_aluFn_shr (d a b : Dbl) : (aluFn .shr d a b).toNat = a.toNat / 2 ^ (b.toNat % 64) := by
  simp only [aluFn, BitVec.toNat_ushiftRight, Nat.shiftRight_eq_div_pow]

theorem toInt_aluFn_sra (d a b : Dbl) : (aluFn .sra d a b).toInt = a.toInt / 2 ^ (b.toNat % 64) := by
  simp [aluFn, BitVec.toInt_sshiftRight, Int.shiftRight_eq_div_pow]

/-- A rotation carries bit i to bit i + n, round the end of the register. -/
theorem getLsbD_aluFn_rol (d a b : Dbl) {i : Nat} (hi : i < 64) :
    (aluFn .rol d a b).getLsbD ((i + b.toNat % 64) % 64) = a.getLsbD i := by
  have hn : b.toNat % 64 < 64 := Nat.mod_lt _ (by decide)
  simp only [aluFn, BitVec.getLsbD_rotateLeft, Nat.mod_mod]
  generalize b.toNat % 64 = n at hn
  by_cases hw : i + n < 64
  · have hlt : ¬ i + n < n := by omega
    simp [Nat.mod_eq_of_lt hw, hlt, hw]
  · have hm : (i + n) % 64 = i + n - 64 := by omega
    have hlt : i + n - 64 < n := by omega
    have hb : 64 - n + (i + n - 64) = i := by omega
    simp [hm, hlt, hb]

theorem toInt_aluFn_min (d a b : Dbl) : (aluFn .min d a b).toInt = min a.toInt b.toInt := by
  simp only [aluFn]
  split <;> omega

theorem toInt_aluFn_max (d a b : Dbl) : (aluFn .max d a b).toInt = max a.toInt b.toInt := by
  simp only [aluFn]
  split <;> omega

theorem toNat_aluFn_minu (d a b : Dbl) : (aluFn .minu d a b).toNat = min a.toNat b.toNat := by
  simp only [aluFn]
  split <;> omega

theorem toNat_aluFn_maxu (d a b : Dbl) : (aluFn .maxu d a b).toNat = max a.toNat b.toNat := by
  simp only [aluFn]
  split <;> omega

theorem clz_le (w x : Nat) : clz w x ≤ w := by
  unfold clz
  split <;> omega

/-- Shifting a code left by its leading zeros brings its highest one to the top bit and no further. -/
theorem clz_normalizes {w x : Nat} (h0 : x ≠ 0) (hx : x < 2 ^ w) :
    clz w x < w ∧ 2 ^ (w - 1) ≤ x * 2 ^ clz w x ∧ x * 2 ^ clz w x < 2 ^ w := by
  have hl : Nat.log2 x < w := (Nat.log2_lt h0).2 hx
  have hc : clz w x = w - 1 - Nat.log2 x := if_neg h0
  have hlow : 2 ^ (w - 1) = 2 ^ Nat.log2 x * 2 ^ clz w x := by rw [← pow_add]; congr 1; omega
  have hhigh : 2 ^ w = 2 ^ (Nat.log2 x + 1) * 2 ^ clz w x := by rw [← pow_add]; congr 1; omega
  refine ⟨by omega, ?_, ?_⟩
  · rw [hlow]
    exact Nat.mul_le_mul_right _ (Nat.log2_self_le h0)
  · rw [hhigh]
    exact Nat.mul_lt_mul_of_pos_right Nat.lt_log2_self (Nat.two_pow_pos _)

theorem toNat_aluFn_clz (d a b : Dbl) : (aluFn .clz d a b).toNat = clz 64 a.toNat := by
  have := clz_le 64 a.toNat
  exact Nat.mod_eq_of_lt (by omega)

theorem popc_eq_length_filter (w x : Nat) : popc w x = ((List.range w).filter x.testBit).length := by
  induction w generalizing x with
  | zero => rfl
  | succ w ih =>
    have hs : x.testBit ∘ Nat.succ = (x / 2).testBit := funext fun i => Nat.testBit_succ x i
    rw [popc, ih, List.range_succ_eq_map, List.filter_cons, List.filter_map, hs, Nat.testBit_zero]
    split
    · simp_all; omega
    · simp_all

theorem toNat_aluFn_popc (d a b : Dbl) :
    (aluFn .popc d a b).toNat = ((List.range 64).filter a.getLsbD).length := by
  have hle : ((List.range 64).filter a.toNat.testBit).length ≤ 64 := by
    simpa using List.length_filter_le a.toNat.testBit (List.range 64)
  have hp := popc_eq_length_filter 64 a.toNat
  calc (aluFn .popc d a b).toNat = popc 64 a.toNat := Nat.mod_eq_of_lt (by omega)
    _ = ((List.range 64).filter a.getLsbD).length := hp

/-! ### Functions of MULDIV (Table 6.2) -/

theorem toInt_mulFn_mulh (a b : Dbl) : (mulFn .mulh a b).toInt = a.toInt * b.toInt / 2 ^ 64 := by
  have hl : -2 ^ 126 ≤ a.toInt * b.toInt := BitVec.le_toInt_mul_toInt
  have hu : a.toInt * b.toInt ≤ 2 ^ 126 := BitVec.toInt_mul_toInt_le
  exact BitVec.toInt_ofInt_eq_self (by decide) (by omega) (by omega)

theorem toNat_mulFn_mulhu (a b : Dbl) : (mulFn .mulhu a b).toNat = a.toNat * b.toNat / 2 ^ 64 := by
  have h : a.toNat * b.toNat < 2 ^ 64 * 2 ^ 64 := Nat.mul_lt_mul'' a.isLt b.isLt
  exact Nat.mod_eq_of_lt (Nat.div_lt_of_lt_mul h)

theorem mulFn_div (a : Dbl) {b : Dbl} (hb : b ≠ 0#64) : mulFn .div a b = a.sdiv b := by
  simp only [mulFn, if_neg hb]
  exact BitVec.eq_of_toInt_eq (by rw [BitVec.toInt_ofInt, BitVec.toInt_sdiv])

theorem mulFn_rem (a : Dbl) {b : Dbl} (hb : b ≠ 0#64) : mulFn .rem a b = a.srem b := by
  simp only [mulFn, if_neg hb]
  rw [← BitVec.toInt_srem, BitVec.ofInt_toInt]

theorem mulFn_divu (a : Dbl) {b : Dbl} (hb : b ≠ 0#64) : mulFn .divu a b = a / b := by
  simp only [mulFn, if_neg hb]
  exact BitVec.eq_of_toNat_eq (Nat.mod_eq_of_lt (Nat.lt_of_le_of_lt (Nat.div_le_self _ _) a.isLt))

theorem mulFn_remu (a : Dbl) {b : Dbl} (hb : b ≠ 0#64) : mulFn .remu a b = a % b := by
  simp only [mulFn, if_neg hb]
  exact BitVec.eq_of_toNat_eq (Nat.mod_eq_of_lt (Nat.lt_of_le_of_lt (Nat.mod_le _ _) a.isLt))

/-! ### Field values that the decoder refuses -/

theorem isOk_accept (i : Instr) : (accept i).isOk = i.wellFormed := by
  unfold accept
  cases i.wellFormed <;> rfl

theorem isOk_whenZero {z : Nat} (hz : z ≠ 0) (m : String) (k : Except DecodeError Instr) :
    (whenZero z m k).isOk = false := by
  unfold whenZero
  rw [if_neg hz]
  rfl

/-- A word of tag 0 that its row of Table 3.9 refuses does not decode. -/
theorem isOk_decodeWord_of_s {op x w : Nat} (hop : op < 64) (hx : x < 2 ^ 24) (hw : w = op * 2 ^ 24 + x)
    (h : (decodeS op x).isOk = false) : (decodeWord w).isOk = false := by
  have htag : bits w 30 2 = 0 := by simp only [bits]; omega
  have hop' : bits w 24 6 = op := by simp only [bits]; omega
  have hx' : bits w 0 24 = x := by simp only [bits]; omega
  simpa only [decodeWord, htag, hop', hx'] using h

theorem aluFn_ofCode_reserved {n : Nat} (h : 17 ≤ n) : AluFn.ofCode n = none := by
  obtain ⟨k, rfl⟩ := Nat.exists_eq_add_of_le' h
  rfl

theorem mulFn_ofCode_reserved {n : Nat} (h : 7 ≤ n) : MulFn.ofCode n = none := by
  obtain ⟨k, rfl⟩ := Nat.exists_eq_add_of_le' h
  rfl

/-- CLZ and POPC have one operand: a B field other than 0 is reserved (R121). -/
theorem wellFormed_alu_unary {f : AluFn} {b : Nat} (hf : f = .clz ∨ f = .popc) (hb : b ≠ 0) (d a : Nat) (g : Guard) :
    (Instr.alu f d a b g).wellFormed = false := by
  rcases hf with rfl | rfl <;> simp [Instr.wellFormed, hb]

theorem isOk_decodeS_alu {x : Nat} (h : 17 ≤ bits x 4 5 ∨ (bits x 4 5 = 14 ∨ bits x 4 5 = 15) ∧ bits x 9 5 ≠ 0) :
    (decodeS 1 x).isOk = false := by
  rcases h with h | ⟨hf, hb⟩
  · simp only [decodeS, aluFn_ofCode_reserved h]
    rfl
  · have hu : ∃ f, AluFn.ofCode (bits x 4 5) = some f ∧ (f = .clz ∨ f = .popc) := by
      rcases hf with hf | hf <;> rw [hf]
      · exact ⟨.clz, rfl, .inl rfl⟩
      · exact ⟨.popc, rfl, .inr rfl⟩
    obtain ⟨f, hcode, hfn⟩ := hu
    simp only [decodeS, hcode]
    cases Guard.ofCode (bits x 0 4) with
    | none => rfl
    | some g => exact (isOk_accept _).trans (wellFormed_alu_unary hfn hb _ _ g)

theorem isOk_decodeS_muldiv {x : Nat} (h : 7 ≤ bits x 4 5) : (decodeS 2 x).isOk = false := by
  simp only [decodeS, mulFn_ofCode_reserved h]
  rfl

/-- LEA's shift is two bits of its function field; the three above them are zero (R125). -/
theorem isOk_decodeS_lea {x : Nat} (h : 4 ≤ x / 16 % 32) : (decodeS 14 x).isOk = false :=
  isOk_whenZero (by simp only [bits]; omega) _ _

/-! ### Words that write a scalar register -/

section
variable {i : Instr} {s : State} {d bound : Nat}

/-- An SA word whose guard holds and whose effect is one bounded write. -/
theorem writesS_guarded {v : Dbl} {g : Guard} (hp : s.present = true) (hd : d < 32) (hg : s.guardOk g = true)
    (h : exec i s = word .s s (guarded g s (.ok (s.wrS d bound v)))) : writesS i .s s d v :=
  writesS_wrS hp hd (by rw [h, guarded_pass hg, word_ok])

theorem writesS_immOp {f : AluFn} {a : Nat} {imm : Dbl} (hp : s.present = true) (hd : d < 32)
    (h : exec i s = immOp f d a imm s) : writesS i .s s d (aluFn f 0#64 (s.rdS a) imm) :=
  writesS_wrS hp hd h

end

theorem getS_wrS {s : State} (d bound : Nat) (v : Dbl) (hp : s.present = true) (hd : d < 32) :
    (s.wrS d bound v).getS d = if d = 0 then 0#64 else v := by
  split
  next h0 => rw [h0, getS_zero]
  next h0 => exact getS_wrS_same s d bound v (present_cur hp) h0 (by rw [present_s hp]; exact hd)

/-- A division's effect before it retires: the write of s[d], and the divider held for 8 cycles (R120). -/
def State.wrDiv (s : State) (d : Nat) (v : Dbl) : State :=
  (s.wrS d 24 v).modSt (fun t => { t with divAt := s.now + 8 })

/-- A division issues once the divider is free. -/
theorem exec_muldiv_divider {s : State} {f : MulFn} {d a b : Nat} {g : Guard} (hg : s.guardOk g = true)
    (hf : usesDivider f = true) (ht : s.st.divAt ≤ s.now) :
    exec (.muldiv f d a b g) s = .next ((s.wrDiv d (mulFn f (s.rdS a) (s.rdS b))).retire .s) := by
  change word .s s (guarded g s _) = _
  simp only [guarded_pass hg, if_pos hf, if_neg (Nat.not_lt.2 ht)]
  rfl

theorem cur_lt_wrDiv {s : State} (d : Nat) (v : Dbl) (h : s.cur < s.cores.length) :
    (s.wrDiv d v).cur < (s.wrDiv d v).cores.length := by
  simpa [State.wrDiv] using cur_lt_wrS d 24 v h

theorem st_wrDiv {s : State} (d : Nat) (v : Dbl) (h : s.cur < s.cores.length) :
    (s.wrDiv d v).st = { (s.wrS d 24 v).st with divAt := s.now + 8 } :=
  st_modSt _ _ (cur_lt_wrS d 24 v h)

/-- The divider's time is no register and no sequencer's. -/
theorem writesS_divider {s : State} {f : MulFn} {d a b : Nat} {g : Guard} (hp : s.present = true) (hd : d < 32)
    (hg : s.guardOk g = true) (hf : usesDivider f = true) (ht : s.st.divAt ≤ s.now) :
    writesS (.muldiv f d a b g) .s s d (mulFn f (s.rdS a) (s.rdS b)) := by
  have hc := present_cur hp
  refine ⟨_, exec_muldiv_divider hg hf ht, wordDone_retire (cur_lt_wrDiv d _ hc) (by simp [State.wrDiv]) ?_, ?_⟩
  · rw [st_wrDiv d _ hc]
    exact eng_wrS d 24 _ .s hc
  · rw [getS_retire _ .s d (cur_lt_wrDiv d _ hc), ← getS_wrS d 24 _ hp hd]
    simp only [State.getS, st_wrDiv d _ hc]

/-- The multiplier forms do not meet the divider. -/
theorem writesS_multiplier {s : State} {f : MulFn} {d a b : Nat} {g : Guard} (hp : s.present = true) (hd : d < 32)
    (hg : s.guardOk g = true) (hf : usesDivider f = false) :
    writesS (.muldiv f d a b g) .s s d (mulFn f (s.rdS a) (s.rdS b)) := by
  refine writesS_guarded (bound := 3) hp hd hg ?_
  change word .s s (guarded g s _) = _
  simp only [hf, Bool.false_eq_true, if_false]

theorem writesS_muldiv {s : State} {f : MulFn} {d a b : Nat} {g : Guard} (hp : s.present = true) (hd : d < 32)
    (hg : s.guardOk g = true) (ht : usesDivider f = true → s.st.divAt ≤ s.now) :
    writesS (.muldiv f d a b g) .s s d (mulFn f (s.rdS a) (s.rdS b)) := by
  cases hf : usesDivider f with
  | true => exact writesS_divider hp hd hg hf (ht hf)
  | false => exact writesS_multiplier hp hd hg hf

/-- A count of SHLI, SHRI or SRAI is below 64, so R121's reduction of it leaves it as it is. -/
theorem toNat_zimm14_mod {n : Nat} (hn : n < 64) : (zimm14 n).toNat % 64 = n := by
  simp only [zimm14, BitVec.toNat_ofNat]
  omega

/-- The immediate shifts (R123), by the count that the word names. -/
theorem writesS_shifts {s : State} {d n : Nat} (a : Nat) (hp : s.present = true) (hd : d < 32) (hn : n < 64) :
    writesS (.shli d a n) .s s d (s.rdS a <<< n) ∧ writesS (.shri d a n) .s s d (s.rdS a >>> n)
      ∧ writesS (.srai d a n) .s s d ((s.rdS a).sshiftRight n) := by
  have hcnt := toNat_zimm14_mod hn
  have hl : aluFn .shl 0#64 (s.rdS a) (zimm14 n) = s.rdS a <<< n := by simp only [aluFn, hcnt]
  have hr : aluFn .shr 0#64 (s.rdS a) (zimm14 n) = s.rdS a >>> n := by simp only [aluFn, hcnt]
  have ha : aluFn .sra 0#64 (s.rdS a) (zimm14 n) = (s.rdS a).sshiftRight n := by simp only [aluFn, hcnt]
  exact ⟨hl ▸ writesS_immOp hp hd rfl, hr ▸ writesS_immOp hp hd rfl, ha ▸ writesS_immOp hp hd rfl⟩

/-- LUH's value as R124 draws it: the immediate above bit 33, and below it the bits of s[D] that are kept. -/
theorem luh_value (i : Int) (r : Dbl) :
    BitVec.ofNat 64 (wrapInt 31 i * 2 ^ 33 + r.toNat % 2 ^ 33) = BitVec.ofInt 31 i ++ r.extractLsb' 0 33 := by
  have hw : (BitVec.ofInt 31 i).toNat = wrapInt 31 i := BitVec.toNat_ofInt i
  have hlt : wrapInt 31 i < 2 ^ 31 := hw ▸ (BitVec.ofInt 31 i).isLt
  have hlow : r.toNat % 2 ^ 33 < 2 ^ 33 := Nat.mod_lt _ (by decide)
  apply BitVec.eq_of_toNat_eq
  rw [BitVec.toNat_append, hw, BitVec.extractLsb'_toNat, Nat.shiftRight_zero, ← Nat.shiftLeft_add_eq_or_of_lt hlow,
    Nat.shiftLeft_eq, BitVec.toNat_ofNat]
  omega

theorem writesS_luh {s : State} {d : Nat} (imm : Nat) (hp : s.present = true) (hd : d < 32) :
    writesS (.luh d imm) .s s d (BitVec.ofInt 31 (sextInt 19 imm) ++ (s.rdS d).extractLsb' 0 33) :=
  luh_value (sextInt 19 imm) (s.rdS d) ▸ writesS_wrS hp hd rfl

/-! ### The statement -/

/-- Settles O6: the tables of ALU and MULDIV function by function, the reserved fields through the decoder's rows, and the words
through the rule for an effect that is one bounded write. -/
theorem scalarWords : Obligations.ScalarWords := by
  unfold Obligations.ScalarWords
  refine ⟨?alu, ?muldiv, ?reserved, ?words⟩
  case alu =>
    intro d a b
    refine ⟨BitVec.toNat_add a b, toNat_aluFn_sub d a b, fun i => ⟨BitVec.getLsbD_and, BitVec.getLsbD_or,
      BitVec.getLsbD_xor, getLsbD_aluFn_andn d a b i, getLsbD_aluFn_sel d a b i⟩, toNat_aluFn_shl d a b,
      toNat_aluFn_shr d a b, toInt_aluFn_sra d a b, fun i => getLsbD_aluFn_rol d a b, toInt_aluFn_min d a b,
      toInt_aluFn_max d a b, toNat_aluFn_minu d a b, toNat_aluFn_maxu d a b, ?_, ?_, toNat_aluFn_popc d a b⟩
    · rintro rfl
      exact toNat_aluFn_clz d 0#64 b
    · intro h0
      rw [toNat_aluFn_clz]
      exact clz_normalizes (fun h => h0 (BitVec.eq_of_toNat_eq h)) a.isLt
  case muldiv =>
    intro a b
    refine ⟨BitVec.toNat_mul a b, toInt_mulFn_mulh a b, toNat_mulFn_mulhu a b, ?_, ?_, ?_, ?_⟩
    · rintro rfl
      exact ⟨rfl, rfl, rfl, rfl⟩
    · rintro rfl rfl
      decide
    · intro hb hne
      rw [mulFn_div a hb]
      exact BitVec.toInt_sdiv_of_ne_or_ne a b (not_and_or.1 hne)
    · intro hb
      rw [mulFn_rem a hb, mulFn_divu a hb, mulFn_remu a hb, BitVec.toInt_srem, Int.tmod_def]
      exact ⟨rfl, BitVec.toNat_udiv, BitVec.toNat_umod⟩
  case reserved =>
    intro x hx
    exact ⟨fun h => isOk_decodeWord_of_s (op := 1) (by decide) hx rfl (isOk_decodeS_alu h),
      fun h => isOk_decodeWord_of_s (op := 2) (by decide) hx rfl (isOk_decodeS_muldiv h),
      fun h => isOk_decodeWord_of_s (op := 14) (by decide) hx rfl (isOk_decodeS_lea h),
      fun h => ⟨isOk_decodeWord_of_s (op := 7) (by decide) hx rfl (isOk_whenZero h _ _),
        isOk_decodeWord_of_s (op := 8) (by decide) hx rfl (isOk_whenZero h _ _),
        isOk_decodeWord_of_s (op := 9) (by decide) hx rfl (isOk_whenZero h _ _)⟩⟩
  case words =>
    intro s d a b imm sh g hp hd hg
    exact ⟨fun f => writesS_guarded hp hd hg rfl, fun f => writesS_muldiv hp hd hg,
      writesS_immOp (f := .add) hp hd rfl, writesS_immOp (f := .and) hp hd rfl,
      writesS_immOp (f := .or) hp hd rfl, writesS_immOp (f := .xor) hp hd rfl, fun n => writesS_shifts a hp hd,
      writesS_wrS hp hd rfl, writesS_luh imm hp hd, writesS_guarded hp hd hg rfl, writesS_guarded hp hd hg rfl⟩

end Sys2Proof.Machine
end

section
/-! SUPPORT. The word YIELD of O24: what the discard of a gang takes and what it leaves, and the halt outputs that a fault of a
Parapet context latches (spec/17_tasks_and_scheduler.md R367, R376; spec/18_faults_and_containment.md R396). -/

namespace Sys2Proof.Machine

/-! ### Operations on memories, caches and clusters -/

/-- Memories, caches and clusters apart, the two states agree on tasks: the scheduler, the error side, and of every core its
ordinary strand and its scratchpad. -/
structure State.KeepsTasks (s t : State) : Prop where
  sched : t.sched = s.sched
  err : t.err = s.err
  length : t.cores.length = s.cores.length
  ord : ∀ k, (t.core k).ord = (s.core k).ord
  spad : ∀ k, (t.core k).spad = (s.core k).spad

theorem State.KeepsTasks.refl (s : State) : s.KeepsTasks s := ⟨rfl, rfl, rfl, fun _ => rfl, fun _ => rfl⟩

theorem State.KeepsTasks.trans {s t u : State} (h : s.KeepsTasks t) (h' : t.KeepsTasks u) : s.KeepsTasks u :=
  ⟨h'.sched.trans h.sched, h'.err.trans h.err, h'.length.trans h.length, fun k => (h'.ord k).trans (h.ord k),
    fun k => (h'.spad k).trans (h.spad k)⟩

theorem State.KeepsTasks.of_cores {s t : State} (hs : t.sched = s.sched) (he : t.err = s.err) (hc : t.cores = s.cores) :
    s.KeepsTasks t :=
  ⟨hs, he, by rw [hc], fun k => by simp only [State.core, hc], fun k => by simp only [State.core, hc]⟩

theorem State.KeepsTasks.foldl {α : Type} {f : State → α → State} (hf : ∀ (t : State) a, t.KeepsTasks (f t a))
    (l : List α) (s : State) : s.KeepsTasks (l.foldl f s) :=
  List.foldlRecOn l f (.refl s) fun t h a _ => h.trans (hf t a)

theorem State.sameButHbm.keepsTasks {s t : State} (h : s.sameButHbm t) : s.KeepsTasks t := by
  obtain ⟨-, hcores, -, -, hsched, -, -, -⟩ := h.parts
  exact .of_cores hsched (by unfold State.sameButHbm at h; rw [h]) hcores

theorem homePuts_keepsTasks (s : State) (pa : Nat) (l : List Byte) : s.KeepsTasks (s.homePuts pa l) :=
  (homeTake_same s pa l.length).keepsTasks.trans (.of_cores rfl rfl rfl)

/-- What dropping a range of cached lines makes of one core. -/
def Core.dropLines (lo hi : Nat) (c : Core) : Core :=
  { c with l1 := c.l1.filter (fun l => l.key + 128 ≤ lo || hi ≤ l.key) }

theorem core_dropLines (s : State) (lo hi k : Nat) : (s.dropLines lo hi).core k = (s.core k).dropLines lo hi :=
  List.getD_map s.cores {} (Core.dropLines lo hi)

theorem dropLines_keepsTasks (s : State) (lo hi : Nat) : s.KeepsTasks (s.dropLines lo hi) :=
  ⟨rfl, rfl, List.length_map _, fun k => by rw [core_dropLines]; rfl, fun k => by rw [core_dropLines]; rfl⟩

theorem settleLines_keepsTasks (s : State) (lo hi : Nat) : s.KeepsTasks (s.settleLines lo hi) := by
  refine (State.KeepsTasks.foldl (fun t l => ?_) _ s).trans (dropLines_keepsTasks _ lo hi)
  split
  · exact .refl t
  · exact (homeTake_same t l.key 128).keepsTasks.trans (.of_cores rfl rfl rfl)

theorem leaveShadows_keepsTasks (s : State) (g : Gang) : s.KeepsTasks (s.leaveShadows g) := by
  refine (State.KeepsTasks.foldl (fun t w => ?_) g.wset s).trans
    (.foldl (fun t c => homePuts_keepsTasks t c.1 [c.2]) g.raw _)
  split
  · exact .refl t
  · exact settleLines_keepsTasks t _ _

theorem freeParts_keepsTasks (s : State) (id : Nat) : s.KeepsTasks (s.freeParts id) := .of_cores rfl rfl rfl

/-! ### The end of a member's strand (R187, R371) -/

/-- Nothing is left of an ordinary strand whose allotment was n bytes. -/
def State.Vacated (s : State) (k n : Nat) : Prop :=
  (s.core k).ord = {} ∧ ∀ o, o < n → mget (s.core k).spad o = 0#8

theorem State.KeepsTasks.vacated {s t : State} (h : s.KeepsTasks t) {k n : Nat} (hv : s.Vacated k n) : t.Vacated k n := by
  obtain ⟨hord, hspad⟩ := hv
  exact ⟨(h.ord k).trans hord, fun o ho => by rw [h.spad k]; exact hspad o ho⟩

theorem clearStrand_length (s : State) (k : Nat) : (s.clearStrand k).cores.length = s.cores.length :=
  length_lmod _ _ _

theorem clearStrand_core_ne (s : State) {k j : Nat} (h : j ≠ k) : (s.clearStrand j).core k = s.core k :=
  core_modCore_ne _ _ _ _ h

theorem clearStrand_core_same (s : State) {k : Nat} (h : k < s.cores.length) :
    (s.clearStrand k).core k = { s.core k with
      ord := {}, spad := mclear (s.core k).spad 0 (s.core k).ord.allot, ldq := [], stq := [], freeSince := s.now } :=
  core_modCore_same _ _ _ h

theorem clearStrand_vacates (s : State) {k : Nat} (h : k < s.cores.length) :
    (s.clearStrand k).Vacated k (s.core k).ord.allot := by
  unfold State.Vacated
  rw [clearStrand_core_same s h]
  exact ⟨rfl, fun o ho => by rw [mget_mclear, if_pos ⟨o.zero_le, ho⟩]⟩

theorem clearStrand_vacated {s : State} {k n : Nat} (h : k < s.cores.length) (hv : s.Vacated k n) (j : Nat) :
    (s.clearStrand j).Vacated k n := by
  obtain ⟨hord, hspad⟩ := hv
  by_cases hj : j = k
  · subst hj
    unfold State.Vacated
    rw [clearStrand_core_same s h]
    refine ⟨rfl, fun o ho => ?_⟩
    rw [mget_mclear, hspad o ho, ite_self]
  · unfold State.Vacated
    rw [clearStrand_core_ne s hj]
    exact ⟨hord, hspad⟩

/-! ### The members of a discarded gang -/

/-- The step of a discard for one member: a strand that has ended has been cleared before. -/
def State.clearMember (s : State) (m : Member) : State := if m.ended then s else s.clearStrand m.core

theorem clearMember_ended (s : State) {m : Member} (h : m.ended = true) : s.clearMember m = s := if_pos h

theorem clearMember_live (s : State) {m : Member} (h : m.ended = false) : s.clearMember m = s.clearStrand m.core := by
  simp only [State.clearMember, h, Bool.false_eq_true, if_false]

theorem clearMember_length (s : State) (m : Member) : (s.clearMember m).cores.length = s.cores.length := by
  cases h : m.ended with
  | true => rw [clearMember_ended s h]
  | false => rw [clearMember_live s h, clearStrand_length]

theorem clearMember_vacated {s : State} {k n : Nat} (h : k < s.cores.length) (hv : s.Vacated k n) (m : Member) :
    (s.clearMember m).Vacated k n := by
  cases he : m.ended with
  | true => rwa [clearMember_ended s he]
  | false => rw [clearMember_live s he]; exact clearStrand_vacated h hv m.core

theorem clearMembers_vacated (l : List Member) {s : State} {k n : Nat} (h : k < s.cores.length) (hv : s.Vacated k n) :
    (l.foldl State.clearMember s).Vacated k n := by
  induction l generalizing s with
  | nil => exact hv
  | cons m l ih => exact ih ((clearMember_length s m).symm ▸ h) (clearMember_vacated h hv m)

/-- Every running member's core is vacated, also where several members name one core: the first of them clears it. -/
theorem clearMembers_vacate {l : List Member} {m : Member} (hm : m ∈ l) (he : m.ended = false) {s : State}
    (h : m.core < s.cores.length) : (l.foldl State.clearMember s).Vacated m.core (s.core m.core).ord.allot := by
  induction l generalizing s with
  | nil => exact absurd hm List.not_mem_nil
  | cons x l ih =>
    have hlen : m.core < (s.clearMember x).cores.length := (clearMember_length s x).symm ▸ h
    rw [List.foldl_cons]
    by_cases hx : x.ended = false ∧ x.core = m.core
    · obtain ⟨hxe, hxc⟩ := hx
      refine clearMembers_vacated l hlen ?_
      rw [clearMember_live s hxe, hxc]
      exact clearStrand_vacates s h
    · have hml : m ∈ l := (List.mem_cons.1 hm).resolve_left fun e => hx (e ▸ ⟨he, rfl⟩)
      have hcore : (s.clearMember x).core m.core = s.core m.core := by
        cases hxe : x.ended with
        | true => rw [clearMember_ended s hxe]
        | false => rw [clearMember_live s hxe, clearStrand_core_ne s fun e => hx ⟨hxe, e⟩]
      rw [← hcore]
      exact ih hml hlen

theorem clearMember_recs (s : State) (m : Member) : (s.clearMember m).sched.recs = s.sched.recs := by
  cases h : m.ended with
  | true => rw [clearMember_ended s h]
  | false => rw [clearMember_live s h]; rfl

theorem clearMembers_recs (l : List Member) (s : State) : (l.foldl State.clearMember s).sched.recs = s.sched.recs :=
  List.foldlRecOn (motive := fun t : State => t.sched.recs = s.sched.recs) l _ rfl
    fun t h m _ => (clearMember_recs t m).trans h

/-! ### The discard that re-queues (R361, R367) -/

/-- The state of a discard before the record goes back: the gang's writes, its strands, its units and its entry are gone. -/
def State.withoutGang (s : State) (id : Nat) (g : Gang) : State :=
  ((g.members.foldl State.clearMember (s.leaveShadows g)).freeParts id).dropGang id

/-- The task of a service keeps no record with the scheduler (R364). -/
theorem discard_requeue {s : State} {id : Nat} {g : Gang} (hid : id ≠ 0) (hg : s.gang id = some g) (bump : Bool) :
    s.discard id (.requeue bump) = if g.task.service then s.withoutGang id g
      else (s.withoutGang id g).modSched (fun d => { d with recs := Fate.record g.task (.requeue bump) :: d.recs }) := by
  unfold State.discard
  rw [if_neg hid, hg]
  rfl

theorem gang_dropGang {id : Nat} (hid : id ≠ 0) (s : State) : (s.dropGang id).gang id = none := by
  unfold State.gang
  rw [if_neg hid]
  exact List.find?_eq_none.2 fun g hg => by simpa using (List.mem_filter.1 hg).2

theorem discard_requeue_gang {s : State} {id : Nat} {g : Gang} (hid : id ≠ 0) (hg : s.gang id = some g) (bump : Bool) :
    (s.discard id (.requeue bump)).gang id = none := by
  rw [discard_requeue hid hg]
  split
  · exact gang_dropGang hid _
  · exact gang_dropGang hid _

theorem withoutGang_recs (s : State) (id : Nat) (g : Gang) : (s.withoutGang id g).sched.recs = s.sched.recs :=
  (clearMembers_recs g.members _).trans (congrArg Sched.recs (leaveShadows_keepsTasks s g).sched)

theorem discard_requeue_recs {s : State} {id : Nat} {g : Gang} (hid : id ≠ 0) (hg : s.gang id = some g)
    (hs : g.task.service = false) (bump : Bool) :
    (s.discard id (.requeue bump)).sched.recs = Fate.record g.task (.requeue bump) :: s.sched.recs := by
  rw [discard_requeue hid hg, hs, ← withoutGang_recs s id g]
  rfl

theorem withoutGang_vacates {s : State} {g : Gang} {m : Member} (hm : m ∈ g.members) (he : m.ended = false)
    (h : m.core < s.cores.length) (id : Nat) : (s.withoutGang id g).Vacated m.core (s.core m.core).ord.allot := by
  have hk := leaveShadows_keepsTasks s g
  rw [← hk.ord]
  exact (freeParts_keepsTasks _ id).vacated (clearMembers_vacate hm he (hk.length.symm ▸ h))

theorem discard_requeue_vacates {s : State} {id : Nat} {g : Gang} (hid : id ≠ 0) (hg : s.gang id = some g) {m : Member}
    (hm : m ∈ g.members) (he : m.ended = false) (h : m.core < s.cores.length) (bump : Bool) :
    (s.discard id (.requeue bump)).Vacated m.core (s.core m.core).ord.allot := by
  rw [discard_requeue hid hg]
  split
  · exact withoutGang_vacates hm he h id
  · exact withoutGang_vacates hm he h id

/-! ### The latched halt outputs (R396) -/

/-- Both halt outputs are latched asserted. -/
def Err.LatchedAsserted (e : Err) : Prop := e.ha = true ∧ e.hb = true ∧ e.latch = true

theorem latchOutputs_latched (s : State) : s.latchOutputs.err.LatchedAsserted := ⟨rfl, rfl, rfl⟩

theorem parClear_err (s : State) (k : Nat) : (s.parClear k).err = s.err := by
  unfold State.parClear
  split <;> rfl

/-- The end of a run leaves the latch, also where a pending trigger starts the next one. -/
theorem parapetOver_latched {s : State} (h : s.err.LatchedAsserted) : s.parapetOver.err.LatchedAsserted := by
  have hcount (l : List PWrite) : (l.foldl (fun t _ => t.latchOutputs) s).err.LatchedAsserted :=
    List.foldlRecOn (motive := fun t : State => t.err.LatchedAsserted) l _ h fun t _ _ _ => latchOutputs_latched t
  unfold State.parapetOver
  dsimp only
  split
  · exact hcount _
  · exact hcount _

theorem parapetKill_latched {s : State} (h : s.err.LatchedAsserted) : s.parapetKill.err.LatchedAsserted := by
  unfold State.parapetKill
  split
  · refine parapetOver_latched ?_
    rw [parClear_err, parClear_err]
    split
    · split
      · exact h
      · rw [(freeParts_keepsTasks _ 0).err, (leaveShadows_keepsTasks s _).err]
        exact h
    · exact h
  · exact h

theorem putRecord_err (s : State) (area : Nat) (bytes : Nat → List Byte) : (s.putRecord area bytes).err = s.err := by
  unfold State.putRecord
  dsimp only
  split
  · rfl
  · exact (homePuts_keepsTasks s _ _).err

/-- ILLEGAL_OPERAND in a Parapet context fences nothing but the run: outputs, kill, record and message (Table 18.2). -/
theorem faultPar_illegalOperand {f : FInfo} (hf : f.code = .illegalOperand) (s : State) (k : Nat) :
    s.faultPar k f = (s.latchOutputs.parapetKill.faultRecord k (s.core k).par true false f).msixCtx 0 := by
  simp [State.faultPar, FInfo.coreHardware, hf]

theorem takeFault_par_latched {f : FInfo} (hf : f.code = .illegalOperand) {s : State}
    (h : (s.core s.cur).inPar = true) : (takeFault f s).err.LatchedAsserted := by
  unfold takeFault
  rw [if_pos h, faultPar_illegalOperand hf]
  change (State.faultRecord _ _ _ _ _ _).err.LatchedAsserted
  unfold State.faultRecord
  rw [putRecord_err]
  exact parapetKill_latched (latchOutputs_latched s)

/-! ### The word -/

/-- A fault that a word raises with nothing but its code is the fault at the word's own program counter. -/
theorem outcome_raiseF (e : Eng) (s : State) (c : FCode) :
    outcome e s (raiseF c) = .next (takeFault (faultAt s e { code := c }) s) := by
  simp only [raiseF, outcome_error, Exc.state, if_true, faultAt]

theorem exec_yield_refused {s : State}
    (h : s.st.commit = .done ∨ (s.core s.cur).inPar = true ∨ 4 ≤ s.st.task.disc) :
    exec .yield s = .next (takeFault (faultAt s .s { code := .illegalOperand }) s) := by
  change execYield s = _
  unfold execYield
  rw [if_pos h, outcome_raiseF]

theorem exec_yield_discards {s : State} (hc : s.st.commit ≠ .done) (hp : (s.core s.cur).inPar = false)
    (hd : s.st.task.disc < 4) : exec .yield s = .next (s.discard s.st.gang (.requeue false)) := by
  change execYield s = _
  unfold execYield
  rw [if_neg]
  rintro (h | h | h)
  · exact hc h
  · simp [hp] at h
  · omega

/-- Settles O24: the discard that re-queues, clause by clause, and the fault with the outputs it latches. -/
theorem yieldWords : Obligations.YieldWords := by
  unfold Obligations.YieldWords
  refine ⟨rfl, rfl, fun s _ => ⟨?discards, exec_yield_refused, takeFault_par_latched rfl⟩⟩
  case discards =>
    intro g hc hp hd hid hg
    exact ⟨_, exec_yield_discards hc hp hd, discard_requeue_gang hid hg false,
      fun hs => discard_requeue_recs hid hg hs false,
      fun m hm he hlen => discard_requeue_vacates hid hg hm he hlen false⟩

end Sys2Proof.Machine
end
